-- ==== Sys2Proof/Word.lean ====
section
/-! DEFINITION. The machine's word types.  Registers are 32 bits wide and every multi-byte field is
little-endian (R8, R9). -/
namespace Sys2Proof

/-- A byte of a store, a record or a message. -/
abbrev Byte := BitVec 8

/-- A 32-bit register value (R11, R12). -/
abbrev Word := BitVec 32

/-- A list of bytes, lowest address first. -/
abbrev Bytes := List Byte

end Sys2Proof
end

