-- ==== Sys2Proof/Machine/Bits.lean ====
section
/-! DEFINITION. Bit fields, little- and big-endian byte order (R8, R9) and the arithmetic shorthands
that every family uses. -/
namespace Sys2Proof.Machine

/-- Bits [lo + n − 1 : lo] of a word, as a number (R8). -/
def field (w : Word) (lo n : Nat) : Nat := (w.toNat >>> lo) % 2 ^ n

/-- One bit of a word (R8). -/
def bit (w : Word) (i : Nat) : Bool := w.toNat.testBit i

/-- The word with bits [lo + n − 1 : lo] replaced by `v`. -/
def setField (w : Word) (lo n v : Nat) : Word :=
  let mask := (2 ^ n - 1) <<< lo
  BitVec.ofNat 32 ((w.toNat &&& (0xFFFFFFFF - mask % 2 ^ 32)) ||| (((v % 2 ^ n) <<< lo) % 2 ^ 32))

/-- The word with bit `i` set or cleared. -/
def setBit (w : Word) (i : Nat) (b : Bool) : Word := setField w i 1 (if b then 1 else 0)

/-- A word from a number, modulo 2^32. -/
def word (n : Nat) : Word := BitVec.ofNat 32 n

/-- 1 for true, 0 for false. -/
def b2n (b : Bool) : Nat := if b then 1 else 0

/-- Little-endian bytes of a number (R9). -/
def leBytes (n v : Nat) : Bytes :=
  match n with
  | 0 => []
  | n + 1 => BitVec.ofNat 8 v :: leBytes n (v / 256)

/-- The number that little-endian bytes spell (R9). -/
def leNat (bs : Bytes) : Nat :=
  match bs with
  | [] => 0
  | b :: r => b.toNat + 256 * leNat r

/-- Big-endian bytes, as Reel Link and Ethernet fields are sent (R9). -/
def beBytes (n v : Nat) : Bytes := (leBytes n v).reverse

/-- The number that big-endian bytes spell. -/
def beNat (bs : Bytes) : Nat := leNat bs.reverse

/-- The `n` bytes of `bs` from offset `o`, as a little-endian number; bytes past the end read 0. -/
def leAt (bs : Bytes) (o n : Nat) : Nat := leNat ((bs.drop o).take n)

/-- The `n` bytes of `bs` from offset `o`, as a big-endian number, as Reel Link fields are sent (R9). -/
def beAt (bs : Bytes) (o n : Nat) : Nat := beNat ((bs.drop o).take n)

/-- The signed value of the low `w` bits of `n`. -/
def sext (w n : Nat) : Int :=
  let m := n % 2 ^ w
  if m < 2 ^ (w - 1) then (m : Int) else (m : Int) - (2 ^ w : Nat)

/-- The low `w` bits of an integer, as a number. -/
def lowBits (w : Nat) (i : Int) : Nat := (i % ((2 ^ w : Nat) : Int)).toNat

/-- Division rounded up. -/
def ceilDiv (a b : Nat) : Nat := (a + b - 1) / b

/-- Round up to a multiple of `b`. -/
def roundUp (a b : Nat) : Nat := ceilDiv a b * b

/-- Is `n` a power of two from `lo` to `hi`? -/
def isPow2In (n lo hi : Nat) : Bool :=
  decide (lo ≤ n) && decide (n ≤ hi) && (n &&& (n - 1) == 0)

/-- Saturating 32-bit count (R252, R266). -/
def satAdd (w : Word) (n : Nat) : Word := word (min (w.toNat + n) 0xFFFFFFFF)

/-- A list padded with zero bytes, or cut, to exactly `n` bytes. -/
def fitBytes (n : Nat) (bs : Bytes) : Bytes := (bs ++ List.replicate (n - bs.length) 0).take n

/-- Do the half-open ranges [a, a+n) and [b, b+m) meet? -/
def rangesMeet (a n b m : Nat) : Bool := decide (0 < n) && decide (0 < m) && decide (a < b + m) && decide (b < a + n)

/-- Replace element `i` of a list; the list is unchanged where it has no such element. -/
def listSet {α : Type} (l : List α) (i : Nat) (v : α) : List α :=
  match l, i with
  | [], _ => []
  | _ :: r, 0 => v :: r
  | x :: r, i + 1 => x :: listSet r i v

/-- lo ≤ n ≤ hi. -/
def between (lo n hi : Nat) : Bool := decide (lo ≤ n) && decide (n ≤ hi)

/-- The number of elements that satisfy `p`. -/
def countIf {α : Type} (p : α → Bool) (l : List α) : Nat := (l.filter p).length

/-- The sum of a list of numbers. -/
def sumNat (l : List Nat) : Nat := l.foldl (· + ·) 0

/-- The largest of a list of numbers, 0 for none. -/
def maxNat (l : List Nat) : Nat := l.foldl max 0

end Sys2Proof.Machine
end

