-- ==== Sys2Proof/Machine/Message.lean ====
section
/-! DEFINITION. What the commands carry: request records (R42), protocol frames (R279), DOE messages
(R238), Ethernet events, environment readings, and the small enumerations that name a fault or a link.
They are plain data; what they mean is in the families. -/
namespace Sys2Proof.Machine

/-- A request slot's record (R42). -/
structure Req where
  seq : Nat := 0
  opcode : Nat := 0
  cls : Nat := 0
  flags : Nat := 0
  tag : Nat := 0
  handle : Nat := 0
  len0 : Nat := 0
  addr0 : Nat := 0
  addr1 : Nat := 0
  len1 : Nat := 0
  arg0 : Nat := 0
  arg1 : Nat := 0
  arg2 : Nat := 0
  arg3 : Nat := 0
  rsvd : Nat := 0
  deriving DecidableEq, Repr

/-- A frame's protocol header and payload (R279). -/
structure Frame where
  ver : Nat := 1
  typ : Nat := 0
  kind : Nat := 0
  flags : Nat := 0
  src : Nat := 0
  dst : Nat := 0
  conv : Nat := 0
  part : Nat := 0
  rsvd : Nat := 0
  epoch : Nat := 0
  peerEpoch : Nat := 0
  seq : Nat := 0
  ack : Nat := 0
  sack : Nat := 0
  credit : Nat := 0
  msg : Nat := 0
  offset : Nat := 0
  msgLen : Nat := 0
  payload : Bytes := []
  deriving DecidableEq, Repr

/-- A protected frame as it arrives at a port (R274): its instant, the association number and packet number of its
SecTAG, whether its ICV is good, and the protocol frame it protects. -/
structure RxFrame where
  port : Fin 9
  inst : Nat := 0
  an : Fin 4 := 0
  pn : Nat := 1
  icvOk : Bool := true
  f : Frame
  deriving DecidableEq, Repr

/-- A clear salt frame (R275). -/
structure SaltFrame where
  port : Fin 9
  inst : Nat := 0
  an : Fin 4
  src : Nat
  salt : Nat
  deriving DecidableEq, Repr

/-- Why a frame was dropped before the protocol saw it (R270, R275, R280, R283). -/
inductive DropReason where
  | vlan | etherType | address | badFcs | clearType | malformed | foreignTwin
  deriving DecidableEq, Repr

/-- Registers that the CLAPPER_CONFIG_WRITE row names (R31). -/
inductive ClapReg where
  | ctrl | period | win | delay
  deriving DecidableEq, Repr

/-- What fails in a prime cell (R109, PRIME page events). -/
inductive CellFault where
  | can | contactSheet | fabric | stream
  deriving DecidableEq, Repr

/-- What fails in a focus pipe (R134, FOCUS page events). -/
inductive PipeFault where
  | cache | store | fabric | mismatch
  deriving DecidableEq, Repr

/-- A link of the main store or an interface of the park tier (R171, R177). -/
inductive LinkId where
  | octal (l : Fin 32)
  | park (i : Fin 8)
  deriving DecidableEq, Repr

/-- Causes of a Splicer halt (R197). -/
inductive SplicerFault where
  | refused | addrErr | rmwParity | linkDown | parity
  deriving DecidableEq, Repr

/-- Causes of a Telecine halt (R220). -/
inductive TelecineFault where
  | engine | readBus | writeBus | poisoned | rmwParity
  deriving DecidableEq, Repr

/-- A context whose next picture may start, and the instant of the opening (R211, R218). -/
structure PicStart where
  ctx : Fin 64
  inst : Nat
  deriving DecidableEq, Repr

/-- A command beat of an octal link and the requester whose beat it is (R168, R170). -/
structure CmdBeat where
  word : Word
  unit : Fin 2048
  deriving DecidableEq, Repr

/-- A write beat of an octal link: the address it goes to and the requester whose beat it is (R176). -/
structure WriteBeat where
  pa : Nat
  unit : Fin 2048
  deriving DecidableEq, Repr

/-- Grave diagnoses (R398). -/
inductive GraveKind where
  | stateBreak | lateRun | storeLink | domainLost | clock | rehearsed
  deriving DecidableEq, Repr

/-- A DOE admission message (R238), after the DOE header. -/
structure DoeMsg where
  msg : Nat
  part : Nat
  status : Nat := 0
  payload : Bytes := []
  deriving DecidableEq, Repr

/-- A CXL.mem request through an HDM decoder's window (R230). -/
structure MemReq where
  decoder : Fin 16
  off : Nat
  write : Bool := false
  poison : Bool := false
  data : Bytes := []
  deriving DecidableEq, Repr

/-- A PTP Sync: the offset that the port measures and the transmitter's time at its instant, in ns (R272). -/
structure SyncMsg where
  port : Fin 9
  domain : Nat := 0
  offset : Int := 0
  time : Nat := 0
  deriving DecidableEq, Repr

/-- A PTP Announce or peer-delay message (R271): the rank the best-clock algorithm gives the sender
(lower is better) and the measured path delay. -/
structure AnnounceMsg where
  port : Fin 9
  domain : Nat := 0
  rank : Nat := 0
  pathDelay : Nat := 0
  deriving DecidableEq, Repr

/-- One feed's meter: 10 mV and 10 mA units (FEED_A, FEED_B). -/
structure FeedMeter where
  volt : Nat := 0
  amp : Nat := 0
  deriving DecidableEq, Repr

/-- One 100 µs sample of the thermal sensors and the feed meters (R376, R371). -/
structure SensorSample where
  tj : Int := 25
  sensor : Nat := 0
  inlet : Int := 25
  outlet : Int := 25
  feedA : FeedMeter := {}
  feedB : FeedMeter := {}
  pinMs : Nat := 0
  deriving DecidableEq, Repr

/-- Average input power of the ended second and its highest millisecond, in watts (R371). -/
structure PowerSample where
  avg : Nat := 0
  peak : Nat := 0
  deriving DecidableEq, Repr

/-- Outcome of a start-up stage (R388). -/
inductive StageOutcome where
  | ok | imageInvalid | fuseFault
  deriving DecidableEq, Repr

/-- What failed in the screen test (R390): bit maps of the failing units. -/
structure ScreenResult where
  primeFailed : List Nat := []
  drawFailed : List Nat := []
  focusFailed : List Nat := []
  other : Nat := 0
  ms : Nat := 0
  deriving DecidableEq, Repr

/-- What a training of the die-to-die link reaches (R224): per module 0 failed, 1 16 GT/s, 2 32 GT/s. -/
structure TrainResult where
  m0 : Nat := 2
  m1 : Nat := 2
  repaired : Nat := 0
  saltD : Nat := 0
  deriving DecidableEq, Repr

/-- Results of a tenancy fuse burn (R348): whether each tried fuse read back burnt. -/
abbrev BurnTrace := List Bool

/-- Instructions of the service-port TAP (R358). -/
inductive TapIns where
  | bypass | idcode | pinTaking | haltCore | resumeCore | readCore | scan
  deriving DecidableEq, Repr

/-- Targets of a debug access (R358). -/
inductive DebugTarget where
  | mainStore (pa : Nat)
  | parkTier (ppa : Nat)
  | unitStore (pg : Fin 4096) (off : Nat)
  deriving DecidableEq, Repr

/-- Who opens a debug session (R359). -/
inductive DebugPath where
  | tap | console
  deriving DecidableEq, Repr

/-- A store access that a restore or copy path reports (R157, R159). -/
inductive CopyResult where
  | ok | parity
  deriving DecidableEq, Repr

/-- Data an item takes at its completion that the spec gives no store for: inbound stream bytes of
draw, focus and Telecine units, the logits of a row block, the halo of a neighbour (R83, R115, R435). -/
structure ItemIn where
  streams : List Bytes := []
  deriving DecidableEq, Repr

end Sys2Proof.Machine
end

