-- ==== Sys2Proof/Syntax.lean ====
section
/-! DEFINITION. The commands: one constructor per row of spec/opcode_table.json, in the table's order.
The table gives no operand fields, so a constructor carries what the row's rule says the step is about:
a partition, a unit, a record, a frame, an instant (`at`, in sixths of a nanosecond, log entry 2). -/
namespace Sys2Proof

open Machine

/-- The block's commands and events. -/
inductive Instr where
  | slate (inst : Nat)
  | clapEdge (inst : Nat) (falling : Bool)
  | holdoverSlate (inst : Nat)
  | clapLost
  | slateFrame (inst : Nat) (f : RxFrame)
  | predictedSlate (inst : Nat)
  | slateFrameLost
  | clapperConfigWrite (r : ClapReg) (v : Word)
  | reelLoad (p : Fin 16) (slot : Nat) (r : Req)
  | reelLoadComplete (p : Fin 16) (slot : Nat)
  | classAReelStart
  | reelUnload (p : Fin 16) (slot : Nat) (r : Req)
  | reelUnloadEffect (p : Fin 16) (handle : Nat)
  | reelResourcesFree (p : Fin 16) (handle : Nat)
  | batchRun (p : Fin 16) (slot : Nat) (r : Req)
  | nop (p : Fin 16) (slot : Nat) (r : Req)
  | badOpcode (p : Fin 16) (slot : Nat) (r : Req)
  | ctxAdmit (p : Fin 16) (slot : Nat) (r : Req)
  | ctxStep (p : Fin 16) (slot : Nat) (r : Req)
  | ctxCancel (p : Fin 16) (slot : Nat) (r : Req)
  | ctxPark (p : Fin 16) (slot : Nat) (r : Req)
  | ctxResume (p : Fin 16) (slot : Nat) (r : Req)
  | parkCopyDone (idx : Nat) (res : CopyResult)
  | resumeCopyDone (idx : Nat) (res : CopyResult)
  | contextExpiry (idx : Nat)
  | itemStart (id : Nat)
  | itemDone (id : Nat) (inp : ItemIn)
  | cellParityHalt (c : Fin 256) (k : CellFault) (addr : Nat)
  | pipeFaultHalt (f : Fin 16) (k : PipeFault) (addr : Nat)
  | mixContribution (port : Fin 8)
  | closedValues (port : Fin 8)
  | splicerFiring (c : Fin 32)
  | splicerListDone (c : Fin 32)
  | splicerChannelHalt (c : Fin 32) (k : SplicerFault) (write : Bool) (narrow : Bool) (addr : Nat)
  | chCmdResume (c : Fin 32)
  | chCmdAbort (c : Fin 32)
  | pictureDone (c : Fin 64) (inst : Nat)
  | sliceEmit (c : Fin 64) (inst : Nat)
  | decodePictureStart (x : PicStart)
  | telecineContextHalt (c : Fin 64) (k : TelecineFault) (addr : Nat)
  | ctxCmdResume (c : Fin 64)
  | ctxCmdRestartIdr (c : Fin 64)
  | cueEdge (o : Fin 8) (inst : Nat)
  | linkDown (l : LinkId)
  | retrain (l : LinkId)
  | retrainDone (l : LinkId)
  | addrErr (l : Fin 32) (x : CmdBeat)
  | diagGo (m : Fin 8) (v : Word)
  | scrub (p : Fin 16)
  | tenantChange (p : Fin 16)
  | counterBurnDone (p : Fin 16) (burns : BurnTrace)
  | scrubShareDone (ctl : Fin 9) (ok : Bool)
  | scrubDone (p : Fin 16)
  | prst (p : Fin 16)
  | partitionReset (p : Fin 16)
  | prstDone (p : Fin 16)
  | partitionEnable (p : Fin 16) (on : Bool)
  | fence (pg : Fin 4096) (v : Word)
  | enable (pg : Fin 4096) (v : Word)
  | rst (pg : Fin 4096) (v : Word)
  | resetDone (pg : Fin 4096)
  | freeze (pg : Fin 4096) (v : Word)
  | ownerLock (pg : Fin 4096) (v : Word)
  | blkEvtSet (pg : Fin 4096) (v : Word)
  | faultLatchRelease (pg : Fin 4096) (v : Word)
  | rcRead (pg : Fin 4112) (w : Fin 1024)
  | narrowAccess (write : Bool) (addr : Nat) (data : Bytes)
  | registerWrite (pg : Fin 4112) (w : Fin 1024) (v : Word)
  | snap
  | release
  | mapCrcClr (c : Fin 224)
  | katGo
  | certDataRead
  | warmRst (v : Word)
  | warmReset
  | mrstN
  | powerOn (straps : Option (Fin 256))
  | startupStageDone (o : StageOutcome)
  | screenTestDone (r : ScreenResult)
  | fwFault
  | scriptLate
  | firmwareRestarted
  | verify
  | install
  | fwInstalled (ok : Bool)
  | svnCommit (v : Word)
  | enter
  | wrapped
  | wake
  | woken
  | evaluationSlate (s : PowerSample)
  | domainReady (d : Fin 30)
  | junctionSample (s : SensorSample)
  | tClear (rung : Fin 4)
  | thermalTrip (tj : Int)
  | feedPresent (b : Bool)
  | feedBack (b : Bool)
  | feedLost (b : Bool)
  | holdup
  | feedOc (b : Bool)
  | domainOc (d : Fin 30)
  | refclkLost
  | refclkBack
  | clock (fabric : Bool)
  | pmbusSilent
  | operation (write : Bool) (v : Byte)
  | clearFaults
  | capability
  | statusWord
  | statusInput
  | statusTemperature
  | statusCml
  | readVin
  | readIin
  | readTemperature1
  | readTemperature2
  | readTemperature3
  | readPin
  | pmbusRevision
  | mfrId
  | mfrModel
  | mfrSerial
  | mfrPowerCap (write : Bool) (v : BitVec 16)
  | mfrFeedA
  | mfrFeedB
  | mfrLevel
  | mfrStart
  | pmbusUnsupported (code : Byte)
  | linkTraining (r : TrainResult)
  | flitCrcError (failed : Bool)
  | ideFail
  | hdmCommit (d : Fin 16) (base : Nat) (size : Nat)
  | cxlMemAccess (m : MemReq)
  | h2dSnoop
  | getReport (inst : Nat) (m : DoeMsg)
  | report (inst : Nat)
  | bind (inst : Nat) (m : DoeMsg)
  | bound (p : Fin 16)
  | unbind (m : DoeMsg)
  | unbound (p : Fin 16)
  | getState (m : DoeMsg)
  | doeAbort
  | portLinkUp (q : Fin 9)
  | portLinkDown (q : Fin 9)
  | salt (f : SaltFrame)
  | saltAnnounce (q : Fin 9)
  | macStorm (q : Fin 9)
  | openFrame (f : RxFrame)
  | openAck (f : RxFrame)
  | data (f : RxFrame)
  | ack (f : RxFrame)
  | probe (f : RxFrame)
  | close (f : RxFrame)
  | closeAck (f : RxFrame)
  | reset (f : RxFrame)
  | conversationOpenRequest (q : Fin 9) (kind : Nat) (conv : Nat) (peer : Nat) (part : Fin 16)
  | conversationCloseRequest (q : Fin 9) (kind : Nat) (conv : Nat) (peer : Nat)
  | rto (i : Nat)
  | ackDelay (i : Nat)
  | keepalive (i : Nat)
  | silence (i : Nat)
  | openRetry (i : Nat)
  | forget (i : Nat)
  | ptpSync (inst : Nat) (m : SyncMsg)
  | ptpLost
  | takeLate (ch : Nat) (t : Nat)
  | takeFilled (ch : Nat) (t : Nat)
  | rushes (q : Fin 9)
  | verdictNotice
  | bindingNotice
  | checkpoint
  | parkImage
  | checkpointRelease
  | contMessage (inst : Nat)
  | takeReleaseSensed (inst : Nat)
  | claimHoldoffExpiry (inst : Nat)
  | takeFault
  | grave (k : GraveKind)
  | take
  | stand
  | yieldTake
  | handover
  | resync
  | cancelHandover
  | cancelTake
  | handoverSlate (low : Bool)
  | contextRestore
  | cutoverGapEnd
  | cutoverSlow
  | arm (on : Bool)
  | rehearsalFiring (e : Fin 16)
  | dump
  | dumpDone (ok : Bool)
  | clear
  | tapInstruction (i : TapIns)
  | debugMemoryAccess (write : Bool) (t : DebugTarget) (d : Bytes)
  | debugOpen (w : DebugPath)
  | debugClose (w : DebugPath)
  | encodePictureStart (x : PicStart)
  | takeSenseLow
  | mrstNRelease
  | parityWr (l : Fin 32) (x : WriteBeat)
  | hot (on : Bool) (i : Fin 8)
  | backInvalidateResponse (granule : Nat)
  | droppedFrame (q : Fin 9) (r : DropReason)
  | ptpAnnounce (m : AnnounceMsg)
  | alertResponse
  | rngFail
  | rngOk
  | fwVerified
  | katBlockDone
  deriving DecidableEq, Repr

end Sys2Proof
end

