-- ==== Sys2Proof/Config.lean ====
section
/-! DEFINITION. Fuses and board facts that differ between modules, and the free values: constants with no
body, so nothing can prove which value they have.  Each is named in notes/assumptions. -/
namespace Sys2Proof.Config

/-- Output of the seal's random bit generator for the n-th request (SEC0, R275, R284, R236). -/
opaque randomBits : Nat → Nat

/-- The house number in the fuses (R344). -/
opaque house : Nat

/-- Identity certificate in the always-on monitor's store (R355), byte by byte. -/
opaque identCert : Nat → BitVec 8

/-- FW_KEY_DIGEST of the fuses (R344), byte by byte. -/
opaque fwKeyDigest : Nat → BitVec 8

/-- Does an ML-DSA-87 signature verify (R350, R351)?  Arguments: context (0 reel, 1 firmware), signed bytes,
public key, signature. -/
opaque mldsaVerify : Nat → List (BitVec 8) → List (BitVec 8) → List (BitVec 8) → Bool

/-- The report signature under the identity key (R354), byte by byte, of the signed bytes. -/
opaque mldsaSign : List (BitVec 8) → Nat → BitVec 8

/-- The secret roots of the fuses, byte by byte (R344): UDS, D2D_ROOT and HOUSE_ROOT. -/
opaque uds : Nat → BitVec 8
opaque d2dRoot : Nat → BitVec 8
opaque houseRoot : Nat → BitVec 8

/-- A byte that the spec leaves unspecified, fresh at each index (log entry 3). -/
opaque freeByte : Nat → BitVec 8

/-- A number that the spec leaves unspecified, fresh at each index (log entry 3). -/
opaque freeNat : Nat → Nat

/-- The time of a magazine controller's read, and whether refresh delayed it (R169), by controller and read. -/
opaque readTime : Nat → Nat → Nat
opaque readDelayed : Nat → Nat → Bool

/-- The engine's fixed coding algorithm, which the spec names but does not give (R212), as functions of everything it depends on:
the length of a part of a picture's stream, its bytes, the reconstructed samples, and the figures of the statistics. -/
opaque encLen : List (BitVec 8) → Nat → Nat
opaque encByte : List (BitVec 8) → Nat → Nat → BitVec 8
opaque encRecon : List (BitVec 8) → Nat → BitVec 8
opaque statFigure : List (BitVec 8) → Nat → Nat

/-- The far end's own number of the port that a cascade port's link to an endpoint leads to: the house's wiring (R273). -/
opaque farPort : Nat → Nat → Nat

/-- Frame of the work area that a stream's first reconstruction takes (R206 gives no order). -/
opaque firstFrame : Nat

/-- What H.265 decoding makes of an access unit (R218, R219), as functions of everything it depends on: whether its syntax and
semantics hold, whether a picture can be formed of one that does not, the verdict of its hash (0 none, 1 right, 2 wrong), its order
count, its QP, whether it is inter coded, the frames that it refers to (a bit each), the frame that takes it, and its samples. -/
opaque decConforms : List (BitVec 8) → Bool
opaque decForms : List (BitVec 8) → Bool
opaque decHash : List (BitVec 8) → Nat
opaque decPoc : List (BitVec 8) → Int
opaque decQp : List (BitVec 8) → Nat
opaque decInter : List (BitVec 8) → Bool
opaque decRefs : List (BitVec 8) → Nat
opaque decFrame : List (BitVec 8) → Nat
opaque decByte : List (BitVec 8) → Nat → BitVec 8

end Sys2Proof.Config
end

