-- ==== Sys2Proof/Machine/Formats.lean ====
section
/-! DEFINITION. Number formats (R55–R57), rounding (R71) and fitting (R72). -/
namespace Sys2Proof.Machine

/-- A value that a format can hold: m × 2^e when finite. -/
inductive NumVal where
  | nan
  | inf (neg : Bool)
  | fin (m : Int) (e : Int)
  deriving DecidableEq, Repr

/-- A floating-point format: exponent bits, mantissa bits, bias, largest finite value, and its specials. -/
structure FloatFmt where
  eb : Nat
  mb : Nat
  bias : Int
  maxM : Nat
  maxE : Int
  hasInf : Bool := false
  nanCode : Option Nat := none
  deriving DecidableEq, Repr

/-- The floating-point element format of a code (R55). -/
def floatFmt (code : Nat) : Option FloatFmt :=
  match code with
  | 0x2 | 0x4 => some { eb := 4, mb := 3, bias := 7, maxM := 14, maxE := 5, nanCode := some 0x7F }
  | 0x3 | 0x5 => some { eb := 5, mb := 2, bias := 15, maxM := 7, maxE := 13, hasInf := true, nanCode := some 0x7F }
  | 0x6 => some { eb := 3, mb := 2, bias := 3, maxM := 7, maxE := 2 }
  | 0x7 => some { eb := 2, mb := 3, bias := 1, maxM := 15, maxE := -1 }
  | 0x8 => some { eb := 2, mb := 1, bias := 1, maxM := 3, maxE := 1 }
  | 0xA => some { eb := 8, mb := 7, bias := 127, maxM := 255, maxE := 120, hasInf := true, nanCode := some 0x7FC0 }
  | 0xB => some { eb := 5, mb := 10, bias := 15, maxM := 2047, maxE := 5, hasInf := true, nanCode := some 0x7E00 }
  | 0xC => some { eb := 8, mb := 23, bias := 127, maxM := 16777215, maxE := 104, hasInf := true,
                  nanCode := some 0x7FC00000 }
  | _ => none

/-- Bits of an element; an MXFP6 element occupies one byte lane (R58). -/
def fmtBits (code : Nat) : Nat :=
  match code with
  | 0x0 => 8 | 0x1 => 4 | 0x8 => 4 | 0xA => 16 | 0xB => 16 | 0xC => 32 | 0xD => 16 | 0xE => 32 | 0xF => 192
  | _ => 8

/-- MX formats carry a block scale (R57). -/
def isMx (code : Nat) : Bool := decide (4 ≤ code) && decide (code ≤ 9)

def isIntFmt (code : Nat) : Bool := code = 0 || code = 1 || code = 9 || code = 0xD || code = 0xE

/-- Decode of a floating-point element (R55, R56); −0 reads as 0. -/
def decodeFloat (f : FloatFmt) (w : Nat) : NumVal :=
  let neg := w.testBit (f.eb + f.mb)
  let e := w / 2 ^ f.mb % 2 ^ f.eb
  let m := w % 2 ^ f.mb
  let top := e = 2 ^ f.eb - 1
  let sgn (n : Nat) : Int := if neg then -(n : Int) else n
  if f.hasInf && top then if m = 0 then .inf neg else .nan
  else if !f.hasInf && f.nanCode.isSome && top && m = 2 ^ f.mb - 1 then .nan
  else if e = 0 then .fin (sgn m) (1 - f.bias - f.mb)
  else .fin (sgn (m + 2 ^ f.mb)) (e - f.bias - f.mb)

/-- An element's value before its block scale (R55, R56). -/
def decodeElem (code w : Nat) : NumVal :=
  match floatFmt code with
  | some f => decodeFloat f (w % 2 ^ (1 + f.eb + f.mb))
  | none =>
    match code with
    | 0x1 => .fin (sext 4 w) 0
    | 0x9 => .fin (sext 8 w) (-6)
    | 0xD => .fin (sext 16 w) 0
    | 0xE => .fin (sext 32 w) 0
    | _ => .fin (sext 8 w) 0

/-- An element under its block scale byte (R57). -/
def decodeScaled (code w scale : Nat) : NumVal :=
  if scale = 255 then .nan
  else match decodeElem code w with
    | .fin m e => .fin m (e + scale - 127)
    | n => n

/-- m × 2^e, floored (R61, R64). -/
def floorShift (m : Int) (e : Int) : Int :=
  if 0 ≤ e then m * (2 ^ e.toNat : Nat) else m / ((2 ^ (-e).toNat : Nat) : Int)

/-- Integer nearest to m × 2^e under RND (R71). -/
def roundInt (rnd : Nat) (m : Int) (e : Int) : Int :=
  if 0 ≤ e then m * (2 ^ e.toNat : Nat)
  else
    let d : Nat := 2 ^ (-e).toNat
    let q := m / (d : Int)
    let r := (m - q * d).toNat
    match rnd with
    | 0 => if 2 * r < d then q else if d < 2 * r then q + 1 else if q % 2 = 0 then q else q + 1
    | 1 => if 2 * r < d then q else if d < 2 * r then q + 1 else if 0 ≤ m then q + 1 else q
    | 2 => if r = 0 then q else if 0 ≤ m then q else q + 1
    | 3 => q
    | _ => if r = 0 then q else q + 1

/-- Range of an integer output. -/
def intRange (code : Nat) : Int × Int :=
  match code with
  | 0x1 => (-8, 7)
  | 0xD => (-32768, 32767)
  | 0xE => (-2147483648, 2147483647)
  | _ => (-128, 127)

/-- Sign bit and magnitude of a format's code. -/
def signed (f : FloatFmt) (neg : Bool) (mag : Nat) : Nat := mag + b2n neg * 2 ^ (f.eb + f.mb)

/-- Code of the largest finite value. -/
def maxCode (f : FloatFmt) : Nat :=
  let e := f.maxE + f.mb + f.bias
  e.toNat * 2 ^ f.mb + (f.maxM - 2 ^ f.mb)

def infCode (f : FloatFmt) : Nat := (2 ^ f.eb - 1) * 2 ^ f.mb

/-- Fitting of infinity and NaN (R72). -/
def fitInf (f : FloatFmt) (neg : Bool) : Nat := signed f neg (if f.hasInf then infCode f else maxCode f)
def fitNan (f : FloatFmt) : Nat := f.nanCode.getD 0

/-- Round a nonzero-magnitude value m × 2^e to a floating-point format and fit it: the code, and whether it
was clamped or became Inf (R71, R72).  A zero result is +0. -/
def roundFloat (f : FloatFmt) (rnd : Nat) (sat : Bool) (m : Int) (e : Int) : Nat × Bool :=
  if m = 0 then (0, false)
  else
    let neg := decide (m < 0)
    let top : Int := (Nat.log2 m.natAbs : Int) + e
    let emin : Int := 1 - f.bias
    let q : Int := (if top < emin then emin else top) - f.mb
    let r := roundInt rnd m (e - q)
    if r = 0 then (0, false)
    else
      let n := r.natAbs
      let (n, q) := if n = 2 ^ (f.mb + 1) then (n / 2, q + 1) else (n, q)
      let high := decide (f.maxE < q) || (decide (f.maxE = q) && decide (f.maxM < n))
      if high then
        (if sat || !f.hasInf then signed f neg (maxCode f) else signed f neg (infCode f), true)
      else if n < 2 ^ f.mb then (signed f neg n, false)
      else (signed f neg ((q + f.mb + f.bias).toNat * 2 ^ f.mb + (n - 2 ^ f.mb)), false)

/-- Steps 4 and 5 of R70 for codes other than MX and LEDGER: the output's code, and whether it counts as an
output saturation (R72). -/
def fitOut (code rnd : Nat) (sat : Bool) (zp : Int) (v : NumVal) : Nat × Bool :=
  match floatFmt code with
  | some f =>
    match v with
    | .nan => (fitNan f, true)
    | .inf n => (fitInf f n, true)
    | .fin m e => roundFloat f rnd sat m e
  | none =>
    let (lo, hi) := intRange code
    let w := fmtBits code
    match v with
    | .nan => (0, true)
    | .inf n => (lowBits w (if n then lo else hi), true)
    | .fin m e =>
      let r := roundInt rnd m e + zp
      if r < lo then (lowBits w lo, true) else if hi < r then (lowBits w hi, true) else (lowBits w r, false)

/-- emax of an MX format (R73). -/
def mxEmax (code : Nat) : Int :=
  match code with
  | 0x4 => 8 | 0x5 => 15 | 0x6 => 4 | 0x7 => 2 | 0x8 => 2 | _ => 0

/-- floor(log2 |v|) of a nonzero finite value. -/
def log2NumVal (m : Int) (e : Int) : Int := (Nat.log2 m.natAbs : Int) + e

/-- The larger of two exponents, none for a zero value. -/
def maxExp (acc : Option Int) (v : NumVal) : Option Int :=
  match v with
  | .fin m e => if m = 0 then acc else
      match acc with
      | none => some (log2NumVal m e)
      | some a => some (max a (log2NumVal m e))
  | _ => acc

/-- An MX close of a block of 32 values: the scale byte and the elements (R73). -/
def fitMx (code rnd : Nat) (sat : Bool) (vs : List NumVal) : Nat × List (Nat × Bool) :=
  let hasNan := vs.any fun v => v = .nan
  let hasInf := vs.any fun v => match v with | .inf _ => true | _ => false
  let ex : Int := if hasInf then 127 else
    match vs.foldl maxExp none with
    | none => -127
    | some t => max (-127) (min 127 (t - mxEmax code))
  let elem (v : NumVal) : Nat × Bool :=
    match v with
    | .fin m e =>
      if code = 9 then
        let r := roundInt rnd m (e - ex + 6)
        if r < -128 then (0x80, true) else if 127 < r then (0x7F, true) else (lowBits 8 r, false)
      else fitOut code rnd sat 0 (.fin m (e - ex))
    | .inf n => if code = 9 then (if n then 0x80 else 0x7F, true) else fitOut code rnd sat 0 (.inf n)
    | .nan => if code = 9 then (0, true) else fitOut code rnd sat 0 .nan
  (if hasNan then 255 else (ex + 127).toNat, vs.map elem)

/-! ### Packed elements -/

/-- Element `i` of bytes that hold elements of a code; 4-bit elements take the lower nibble first. -/
def elemAt (code : Nat) (bs : Bytes) (i : Nat) : Nat :=
  let w := fmtBits code
  if w = 4 then leAt bs (i / 2) 1 / 16 ^ (i % 2) % 16 else leAt bs (i * (w / 8)) (w / 8)

/-- Pack elements into bytes. -/
def packNibbles (l : List Nat) : Bytes :=
  match l with
  | [] => []
  | [a] => [BitVec.ofNat 8 (a % 16)]
  | a :: b :: r => BitVec.ofNat 8 (a % 16 + b % 16 * 16) :: packNibbles r

def packElems (code : Nat) (l : List Nat) : Bytes :=
  let w := fmtBits code
  if w = 4 then packNibbles l else l.flatMap (leBytes (w / 8))

end Sys2Proof.Machine
end

