-- ==== Sys2Proof/Machine/Digest.lean ====
section
/-! DEFINITION. SHA3-512 (FIPS 202), CRC-32C (R141), the ECMA-182 CRC-64 (R98) and Philox4x32-10 (R161). -/
namespace Sys2Proof.Machine

/-! ### Keccak-f[1600]; lanes x + 5y -/

def lane (s : List Nat) (i : Nat) : Nat := s.getD i 0

def rotl64 (v n : Nat) : Nat := (v * 2 ^ n % 2 ^ 64) ||| (v / 2 ^ (64 - n))

/-- Rotation of each lane. -/
def rhoOff : List Nat :=
  [0, 1, 62, 28, 27, 36, 44, 6, 55, 20, 3, 10, 43, 25, 39, 41, 45, 15, 21, 8, 18, 2, 61, 56, 14]

def keccakRc : List Nat :=
  [0x0000000000000001, 0x0000000000008082, 0x800000000000808A, 0x8000000080008000, 0x000000000000808B,
   0x0000000080000001, 0x8000000080008081, 0x8000000000008009] ++
  [0x000000000000008A, 0x0000000000000088, 0x0000000080008009, 0x000000008000000A, 0x000000008000808B,
   0x800000000000008B, 0x8000000000008089, 0x8000000000008003] ++
  [0x8000000000008002, 0x8000000000000080, 0x000000000000800A, 0x800000008000000A, 0x8000000080008081,
   0x8000000000008080, 0x0000000080000001, 0x8000000080008008]

/-- One round: theta, rho and pi, chi, iota. -/
def keccakRound (s : List Nat) (rc : Nat) : List Nat :=
  let c := (List.range 5).map fun x =>
    lane s x ^^^ lane s (x + 5) ^^^ lane s (x + 10) ^^^ lane s (x + 15) ^^^ lane s (x + 20)
  let d := (List.range 5).map fun x => lane c ((x + 4) % 5) ^^^ rotl64 (lane c ((x + 1) % 5)) 1
  let t := (List.range 25).map fun i => lane s i ^^^ lane d (i % 5)
  -- pi moves lane (x, y) to (y, 2x + 3y): lane (X, Y) comes from x = X + 3Y, y = X
  let b := (List.range 25).map fun i =>
    let src := (i % 5 + 3 * (i / 5)) % 5 + 5 * (i % 5)
    rotl64 (lane t src) (rhoOff.getD src 0)
  let e := (List.range 25).map fun i =>
    let y := 5 * (i / 5)
    lane b i ^^^ ((2 ^ 64 - 1 - lane b (y + (i + 1) % 5)) &&& lane b (y + (i + 2) % 5))
  match e with
  | [] => []
  | a :: r => (a ^^^ rc) :: r

def keccakF (s : List Nat) : List Nat := keccakRc.foldl keccakRound s

/-- Absorb whole blocks of `r` bytes, a rate of the sponge. -/
def absorb (r : Nat) (s : List Nat) (bs : Bytes) (fuel : Nat) : List Nat :=
  match fuel with
  | 0 => s
  | f + 1 =>
    if bs.isEmpty then s
    else
      let s := (List.range 25).map fun i => lane s i ^^^ (if i < r / 8 then leAt bs (8 * i) 8 else 0)
      absorb r (keccakF s) (bs.drop r) f

/-- SHA3-512: 64 bytes. -/
def sha3 (m : Bytes) : Bytes :=
  let k := 72 - m.length % 72
  let pad : Bytes := if k = 1 then [0x86] else 0x06 :: (List.replicate (k - 2) 0 ++ [0x80])
  let s := absorb 72 (List.replicate 25 0) (m ++ pad) (m.length / 72 + 1)
  ((List.range 8).flatMap fun i => leBytes 8 (lane s i))

/-! ### CRCs -/

/-- One bit of CRC-32C, reflected: polynomial 0x1EDC6F41 as 0x82F63B78. -/
def crc32cBit (c : Nat) : Nat := if c % 2 = 1 then c / 2 ^^^ 0x82F63B78 else c / 2

def crc32cByte (c : Nat) (b : Byte) : Nat :=
  (List.range 8).foldl (fun c _ => crc32cBit c) (c ^^^ b.toNat)

def crc32c (m : Bytes) : Nat := m.foldl crc32cByte 0xFFFFFFFF ^^^ 0xFFFFFFFF

/-- One bit of the ECMA-182 CRC-64, most significant bit first (R98). -/
def crc64Bit (c : Nat) : Nat :=
  if 2 ^ 63 ≤ c then (2 * c % 2 ^ 64) ^^^ 0x42F0E1EBA9EA3693 else 2 * c

def crc64Byte (c : Nat) (b : Byte) : Nat :=
  (List.range 8).foldl (fun c _ => crc64Bit c) (c ^^^ (b.toNat * 2 ^ 56))

def crc64 (init : Nat) (m : Bytes) : Nat := m.foldl crc64Byte init

/-! ### Philox4x32-10 -/

/-- Ten rounds; the key rises by the Weyl constants between rounds. -/
def philoxRounds (n k0 k1 c0 c1 c2 c3 : Nat) : List Nat :=
  match n with
  | 0 => [c0, c1, c2, c3]
  | n + 1 =>
    let p0 := 0xD2511F53 * c0
    let p1 := 0xCD9E8D57 * c2
    philoxRounds n ((k0 + 0x9E3779B9) % 2 ^ 32) ((k1 + 0xBB67AE85) % 2 ^ 32)
      (p1 / 2 ^ 32 ^^^ c1 ^^^ k0) (p1 % 2 ^ 32) (p0 / 2 ^ 32 ^^^ c3 ^^^ k1) (p0 % 2 ^ 32)

def philox (k0 k1 c0 c1 c2 c3 : Nat) : List Nat := philoxRounds 10 k0 k1 c0 c1 c2 c3

/-- r of R161: x0 + 2^32 × x1 at position p. -/
def drawOf (k0 k1 p : Nat) : Nat :=
  let o := philox k0 k1 p 0 0 0
  o.getD 0 0 + 2 ^ 32 * o.getD 1 0

end Sys2Proof.Machine
end

