-- ==== Sys2Proof/Machine/Cipher.lean ====
section
/-! DEFINITION. The seal's key derivation and the stores' cipher: KMAC256 (SP 800-185) as the KDF of R345, AES-256
(FIPS 197) and XTS (IEEE 1619) with the tweak of R175. -/
namespace Sys2Proof.Machine

/-- A byte from a number, modulo 256. -/
def toByte (n : Nat) : Byte := BitVec.ofNat 8 n

/-! ### KMAC256 -/

/-- `left_encode` and `right_encode` of SP 800-185, for numbers below 2^16. -/
def encBytes (n : Nat) : Bytes := if n < 256 then [toByte n] else [toByte (n / 256), toByte n]
def leftEnc (n : Nat) : Bytes := toByte (encBytes n).length :: encBytes n
def rightEnc (n : Nat) : Bytes := encBytes n ++ [toByte (encBytes n).length]
def encString (b : Bytes) : Bytes := leftEnc (8 * b.length) ++ b

/-- `bytepad` to the rate of cSHAKE256, 136 bytes. -/
def bytePad (b : Bytes) : Bytes :=
  let x := leftEnc 136 ++ b
  x ++ List.replicate (roundUp x.length 136 - x.length) 0

/-- KMAC256(K, X, 8 × n, S) for n up to 136 bytes. -/
def kmac256 (k x : Bytes) (n : Nat) (cust : Bytes) : Bytes :=
  let m := bytePad (encString [0x4B, 0x4D, 0x41, 0x43] ++ encString cust) ++ bytePad (encString k) ++ x ++ rightEnc (8 * n)
  let r := 136 - m.length % 136
  let pad : Bytes := if r = 1 then [0x84] else 0x04 :: (List.replicate (r - 2) 0 ++ [0x80])
  let s := absorb 136 (List.replicate 25 0) (m ++ pad) (m.length / 136 + 1)
  ((List.range 17).flatMap fun i => leBytes 8 (lane s i)).take n

/-- Bytes of an ASCII customisation string. -/
def ascii (t : String) : Bytes := t.toList.map fun c => toByte c.toNat

/-- KDF(K, S, X, L) of R345. -/
def kdf (k : Bytes) (cust : String) (x : Bytes) (len : Nat) : Bytes := kmac256 k x len (ascii cust)

/-! ### AES-256 -/

/-- The S-box of FIPS 197, sixteen bytes a row. -/
def sboxRows : List Nat :=
  [0x637c777bf26b6fc53001672bfed7ab76, 0xca82c97dfa5947f0add4a2af9ca472c0, 0xb7fd9326363ff7cc34a5e5f171d83115,
   0x04c723c31896059a071280e2eb27b275, 0x09832c1a1b6e5aa0523bd6b329e32f84, 0x53d100ed20fcb15b6acbbe394a4c58cf,
   0xd0efaafb434d338545f9027f503c9fa8, 0x51a3408f929d38f5bcb6da2110fff3d2] ++
  [0xcd0c13ec5f974417c4a77e3d645d1973, 0x60814fdc222a908846eeb814de5e0bdb, 0xe0323a0a4906245cc2d3ac629195e479,
   0xe7c8376d8dd54ea96c56f4ea657aae08, 0xba78252e1ca6b4c6e8dd741f4bbd8b8a, 0x703eb5664803f60e613557b986c11d9e,
   0xe1f8981169d98e949b1e87e9ce5528df, 0x8ca1890dbfe6426841992d0fb054bb16]

def sbox (x : Nat) : Nat := (sboxRows.getD (x / 16) 0 >>> (8 * (15 - x % 16))) % 256
def invSbox (x : Nat) : Nat := ((List.range 256).find? fun y => sbox y = x).getD 0

/-- Multiplication by x in GF(2^8), and products of the first `n` bits of `b`. -/
def xtime (b : Nat) : Nat := if 128 ≤ b then (2 * b % 256) ^^^ 0x1B else 2 * b
def gmul (n a b : Nat) : Nat :=
  match n with
  | 0 => 0
  | n + 1 => (if b % 2 = 1 then a else 0) ^^^ gmul n (xtime a) (b / 2)

def xorBytes (a b : List Nat) : List Nat := List.zipWith (· ^^^ ·) a b

/-- Words of the key schedule, newest first: word i from word i - 1 and word i - 8. -/
def keyWords (n i rcon : Nat) (ws : List (List Nat)) : List (List Nat) :=
  match n with
  | 0 => ws
  | n + 1 =>
    let t := ws.headD []
    let t := if i % 8 = 0 then xorBytes ((t.drop 1 ++ t.take 1).map sbox) [rcon, 0, 0, 0]
      else if i % 8 = 4 then t.map sbox else t
    keyWords n (i + 1) (if i % 8 = 0 then xtime rcon else rcon) (xorBytes (ws.getD 7 []) t :: ws)

/-- The 15 round keys of a 32-byte key. -/
def roundKeys (key : List Nat) : List (List Nat) :=
  let w0 := (List.range 8).map fun i => (key.drop (4 * i)).take 4
  let ws := (keyWords 52 8 1 w0.reverse).reverse
  (List.range 15).map fun r => ((ws.drop (4 * r)).take 4).flatten

/-- ShiftRows by `m` columns a row: 1 forward, 3 inverse. -/
def shiftRows (m : Nat) (s : List Nat) : List Nat := (List.range 16).map fun i => s.getD ((i + 4 * m * (i % 4)) % 16) 0

/-- MixColumns with the circulant row `c`. -/
def mixColumns (c s : List Nat) : List Nat :=
  (List.range 16).map fun i => (List.range 4).foldl (fun a k =>
    a ^^^ gmul 8 (s.getD (i / 4 * 4 + k) 0) (c.getD ((k + 4 - i % 4) % 4) 0)) 0

/-- AES-256 of one block under its round keys. -/
def aesEnc (rk : List (List Nat)) (b : List Nat) : List Nat :=
  let s := (List.range 13).foldl (fun s r =>
    xorBytes (mixColumns [2, 3, 1, 1] (shiftRows 1 (s.map sbox))) (rk.getD (r + 1) [])) (xorBytes b (rk.getD 0 []))
  xorBytes (shiftRows 1 (s.map sbox)) (rk.getD 14 [])

/-- The inverse cipher. -/
def aesDec (rk : List (List Nat)) (b : List Nat) : List Nat :=
  let s := (List.range 13).foldl (fun s r =>
    mixColumns [14, 11, 13, 9] (xorBytes ((shiftRows 3 s).map invSbox) (rk.getD (13 - r) []))) (xorBytes b (rk.getD 14 []))
  xorBytes ((shiftRows 3 s).map invSbox) (rk.getD 0 [])

/-! ### XTS over one granule -/

def natsOf (b : Bytes) : List Nat := b.map fun x => x.toNat

/-- The tweak times x, as a little-endian 128-bit number. -/
def xtsDouble (t : List Nat) : List Nat :=
  let n := 2 * leNat (t.map toByte)
  natsOf (leBytes 16 (if 2 ^ 128 ≤ n then (n - 2 ^ 128) ^^^ 0x87 else n))

/-- Blocks of a data unit, each under the next tweak. -/
def xtsBlocks (f : List Nat → List Nat) (n : Nat) (t b : List Nat) : List Nat :=
  match n with
  | 0 => []
  | n + 1 => xorBytes (f (xorBytes (b.take 16) t)) t ++ xtsBlocks f n (xtsDouble t) (b.drop 16)

/-- Tweak of a granule: its number, and the store in bit 64 (R175). -/
def xtsTweak (park : Bool) (g : Nat) : List Nat := natsOf (leBytes 16 (g % 2 ^ 64 + 2 ^ 64 * b2n park))

/-- XTS-AES-256 of a 64-byte granule under a key pair: data key, then tweak key. -/
def xtsEnc (pair : Bytes) (park : Bool) (g : Nat) (b : Bytes) : Bytes :=
  let t := aesEnc (roundKeys (natsOf (pair.drop 32))) (xtsTweak park g)
  (xtsBlocks (aesEnc (roundKeys (natsOf (pair.take 32)))) 4 t (natsOf b)).map toByte

def xtsDec (pair : Bytes) (park : Bool) (g : Nat) (b : Bytes) : Bytes :=
  let t := aesEnc (roundKeys (natsOf (pair.drop 32))) (xtsTweak park g)
  (xtsBlocks (aesDec (roundKeys (natsOf (pair.take 32)))) 4 t (natsOf b)).map toByte

/-! ### The seal's keys (R344, R345) -/

def udsBytes : Bytes := (List.range 32).map Config.uds
def d2dRoot : Bytes := (List.range 32).map Config.d2dRoot
def houseRoot : Bytes := (List.range 32).map Config.houseRoot

/-- Seed of the identity key pair. -/
def identSeed : Bytes := kdf udsBytes "ZX9 IDENTITY" [] 32

/-- Memory key pair: `p` the partition or 0xFF for the module, `t` its tenancy value, `nonce` BOOT_NONCE. -/
def memKeyPair (p t : Nat) (nonce : Bytes) : Bytes := kdf udsBytes "ZX9 MEMORY" (leBytes 1 p ++ leBytes 2 t ++ nonce) 64

/-- IDE stream key: `stream` 0 CXL.io, 1 CXL.cachemem; `dir` 0 toward the Zhodex die, 1 toward the director die. -/
def ideKey (stream dir : Nat) (saltZ saltD : Bytes) : Bytes :=
  kdf d2dRoot "ZX9 IDE" (leBytes 1 stream ++ leBytes 1 dir ++ saltZ ++ saltD) 32

/-- House link keys: HM, the module link key, and HL, the endpoint link key. -/
def linkKeyHM : Bytes := kdf houseRoot "ZX9 HOUSE MODULE" (leBytes 4 Config.house) 32
def linkKeyHL : Bytes := kdf houseRoot "ZX9 HOUSE LINK" (leBytes 4 Config.house) 32

/-- The house link key of a port whose partner has this endpoint ID (R346). -/
def linkKeyOf (partner : Nat) : Bytes := if partner < 0x4000 then linkKeyHM else linkKeyHL

/-- MACsec SAK in bytes 0 to 31, XPN salt in bytes 32 to 43. -/
def macsecKey (root : Bytes) (sender an : Nat) (salt : Bytes) : Bytes :=
  kdf root "ZX9 MACSEC" (leBytes 2 sender ++ leBytes 1 an ++ salt) 44

end Sys2Proof.Machine
end

