-- ==== Sys2Proof/Machine/Octal.lean ====
section
/-! DEFINITION. What travels on an octal link and lies in a park device: beats and their parity, frames and command
words, the link and offset of an address, and the stripe layout (R167, R168, R170, R172, R177). -/
namespace Sys2Proof.Machine

/-! ### Beats (R167) -/

/-- Parity bit of a byte: the count of ones in the nine bits is odd. -/
def oddParity (b : Byte) : Bool := countIf (fun i => b.toNat.testBit i) (List.range 8) % 2 = 0

/-- The nine unit intervals of one lane: the byte, least significant bit first, then its parity bit. -/
def laneBits (b : Byte) : List Bool := (List.range 8).map (fun i => b.toNat.testBit i) ++ [oddParity b]

/-- The eight beats of a granule, in ascending order: byte k travels in beat k / 8 on lane k mod 8. -/
def beats (g : Bytes) : List Bytes := (List.range 8).map fun b => (g.drop (8 * b)).take 8

/-- A beat on the wire: 9 unit intervals on each lane. -/
def beatBits (b : Bytes) : List (List Bool) := b.map laneBits

/-- A byte with its parity bit in bit 8; a failing byte has the bit inverted (R176). -/
def nineBits (b : Byte) (bad : Bool) : Nat := b.toNat + 256 * b2n (oddParity b != bad)

/-! ### Commands and frames (R168) -/

inductive LinkCmd where
  | nop
  | read (gran : Nat)
  | write (gran : Nat) (data : Bytes)
  deriving DecidableEq, Repr

/-- The 32-bit command word: OP [31:29], reserved [28:27], GRAN [26:0]. -/
def LinkCmd.word : LinkCmd → Nat
  | .nop => 0
  | .read g => 0x20000000 + g % 2 ^ 27
  | .write g _ => 0x40000000 + g % 2 ^ 27

/-- Fields of a command word. -/
def cmdOp (w : Nat) : Nat := w / 2 ^ 29 % 8
def cmdRsvd (w : Nat) : Nat := w / 2 ^ 27 % 4
def cmdGran (w : Nat) : Nat := w % 2 ^ 27

/-- Granules of a section. -/
def sectionGrans : Nat := 100663296

/-- Can a magazine carry the command out (R170)? -/
def cmdOk (w : Nat) : Bool := decide (cmdOp w ≤ 2) && cmdRsvd w = 0 && decide (cmdGran w < sectionGrans)

/-- Data beats that a command adds downstream. -/
def LinkCmd.beats : LinkCmd → List Bytes
  | .write _ d => Machine.beats d
  | _ => []

/-- A command beat: command 0 in bytes 0 to 3, command 1 in bytes 4 to 7. -/
def commandBeat (c0 c1 : LinkCmd) : Bytes := leBytes 4 c0.word ++ leBytes 4 c1.word

/-- Beats 1 to 7 of a frame carry the oldest write data that waits; an unused one is zero. -/
def dataBeats (wait : List Bytes) : List Bytes :=
  (List.range 7).map fun k => wait.getD k (List.replicate 8 0)

/-- Downstream frames of a sequence of commands: two commands a frame, and the data of a WRITE in the next free data
beats after the frame that carries it. -/
def frames (fuel : Nat) (cs : List LinkCmd) (wait : List Bytes) : List (List Bytes) :=
  match fuel with
  | 0 => []
  | fuel + 1 =>
    if cs.isEmpty && wait.isEmpty then []
    else
      let c0 := cs.headD .nop
      let c1 := (cs.drop 1).headD .nop
      (commandBeat c0 c1 :: dataBeats wait) :: frames fuel (cs.drop 2) (wait.drop 7 ++ c0.beats ++ c1.beats)

/-- Enough frames for every command and beat. -/
def downstream (cs : List LinkCmd) : List (List Bytes) := frames (10 * cs.length + 1) cs []

/-- Upstream, a link carries only the data of its READs, in command order. -/
def upstream (held : Nat → Bytes) (cs : List LinkCmd) : List Bytes :=
  cs.flatMap fun c => match c with
    | .read g => beats (held g)
    | _ => []

/-! ### Address map (R172) -/

/-- Link of a main-store address. -/
def linkOf (pa : Nat) : Nat :=
  (pa >>> 8 ^^^ pa >>> 13 ^^^ pa >>> 18 ^^^ pa >>> 23 ^^^ pa >>> 28 ^^^ pa >>> 33) % 32

/-- Byte offset within the section, and the GRAN field. -/
def loOf (pa : Nat) : Nat := pa / 2 ^ 13 * 2 ^ 8 + pa % 2 ^ 8
def granOf (pa : Nat) : Nat := loOf pa / 64

/-- The address of a section offset on a link: PA [12:8] is recovered from the link and the bits kept. -/
def paOf (l lo : Nat) : Nat :=
  let hi := lo / 2 ^ 8
  let mid := (l ^^^ hi ^^^ hi >>> 5 ^^^ hi >>> 10 ^^^ hi >>> 15 ^^^ hi >>> 20) % 32
  hi * 2 ^ 13 + mid * 2 ^ 8 + lo % 2 ^ 8

/-! ### Park tier (R177) -/

/-- Interface of a park address. -/
def ifOf (ppa : Nat) : Nat := (ppa >>> 9 ^^^ ppa >>> 21) % 8

/-- Stripe on its interface, and the byte of the interface's raw space that holds a park address. -/
def stripeOf (ppa : Nat) : Nat := ppa / 2 ^ 12
def rawByteOf (ppa : Nat) : Nat := stripeOf ppa * 576 + ppa % 512

/-- The parity granule of a stripe: bit j of byte w is the odd-parity bit of data byte 8w + j. -/
def parityGranule (d : Bytes) : Bytes :=
  (List.range 64).map fun w => BitVec.ofNat 8 (sumNat ((List.range 8).map fun j =>
    2 ^ j * b2n (oddParity (d.getD (8 * w + j) 0))))

/-- The 576 bytes that a device holds for a stripe of 512 data bytes. -/
def stripeBytes (d : Bytes) : Bytes := d ++ parityGranule d

end Sys2Proof.Machine
end

