-- ==== Sys2Proof/Machine/RegTable.lean ====
section
/-! DEFINITION. The register map: the page index (R251) and every page's register table with its access
codes, reset values and defined bits (R13, R14, R251, R252, R430 and the register tables of the chapters). -/
namespace Sys2Proof.Machine

/-- Access codes (R13). -/
inductive Acc where
  | rw | ro | wo | w1s | rc
  deriving DecidableEq, Repr

/-- Blocks with register pages (R251).  `none` is an unimplemented page (R250). -/
inductive PageKind where
  | none | global | gaffer | clapper | sched | script | sec | twin | cont | rehearsal | dailies | port
  | mag | park | splicer | channel | telecine | tcctx | framing | cutter | focus | prime | draw
  | partition | d2d
  deriving DecidableEq, Repr

/-- The page index (R251). -/
def pageKind (pg : Nat) : PageKind :=
  if pg = 0x000 then .global
  else if pg = 0x001 then .gaffer
  else if pg = 0x002 then .clapper
  else if pg = 0x003 then .sched
  else if pg = 0x004 then .script
  else if pg < 0x008 then .none
  else if pg < 0x010 then .sec
  else if pg = 0x010 then .twin
  else if pg = 0x011 then .cont
  else if pg = 0x012 then .rehearsal
  else if pg = 0x013 then .dailies
  else if pg < 0x018 then .none
  else if pg < 0x020 then .port
  else if pg < 0x028 then .mag
  else if pg = 0x028 then .park
  else if pg < 0x02C then .none
  else if pg = 0x02C then .splicer
  else if pg < 0x030 then .none
  else if pg < 0x050 then .channel
  else if pg = 0x050 then .telecine
  else if pg < 0x091 then .tcctx
  else if pg < 0x0A0 then .none
  else if pg = 0x0A0 then .framing
  else if pg < 0x0A8 then .none
  else if pg = 0x0A8 then .cutter
  else if pg < 0x0B0 then .none
  else if pg < 0x0C0 then .focus
  else if pg < 0x100 then .none
  else if pg < 0x1E0 then .prime
  else if pg < 0x200 then .draw
  else if pg < 0x210 then .partition
  else if pg = 0x300 then .d2d
  else .none

/-- First page of a kind (R251): the instance is the page less this. -/
def kindBase : PageKind → Nat
  | .none => 0 | .global => 0 | .gaffer => 1 | .clapper => 2 | .sched => 3 | .script => 4 | .sec => 8
  | .twin => 0x10 | .cont => 0x11 | .rehearsal => 0x12 | .dailies => 0x13 | .port => 0x18 | .mag => 0x20
  | .park => 0x28 | .splicer => 0x2C | .channel => 0x30 | .telecine => 0x50 | .tcctx => 0x51
  | .framing => 0xA0 | .cutter => 0xA8 | .focus => 0xB0 | .prime => 0x100 | .draw => 0x1E0
  | .partition => 0x200 | .d2d => 0x300

/-- The BLK_ID type of a kind (R251): its first page, with five exceptions. -/
def kindType : PageKind → Nat
  | .none => 0 | .global => 1 | .gaffer => 2 | .clapper => 3 | .sched => 4 | .script => 5
  | .channel => 0x2D | .cont => 0x11 | k => kindBase k

/-- BLK_ID: [15:0] type, [31:16] instance (R252). -/
def blkId (pg : Nat) : Word :=
  let k := pageKind pg
  word (kindType k + (pg - kindBase k) * 0x10000)

def implemented (pg : Nat) : Bool := pageKind pg ≠ .none

/-- One line of a register table: `n` words from offset `off`. -/
structure RegRow where
  off : Nat
  n : Nat
  acc : Acc
  reset : Nat
  mask : Nat
  deriving DecidableEq, Repr

def rRO (off : Nat) (n : Nat := 1) (reset : Nat := 0) : RegRow := ⟨off, n, .ro, reset, 0⟩
def rRC (off : Nat) (n : Nat := 1) : RegRow := ⟨off, n, .rc, 0, 0⟩
def rRW (off mask : Nat) (reset : Nat := 0) (n : Nat := 1) : RegRow := ⟨off, n, .rw, reset, mask⟩
def rWO (off mask : Nat) : RegRow := ⟨off, 1, .wo, 0, mask⟩

def full : Nat := 0xFFFFFFFF

/-- GLOBAL page register table. -/
def rowsGlobal : List RegRow :=
  [rRW 0x40 0x3FFF, rRO 0x44, rRW 0x48 0x13F7F 1, rRW 0x4C 0x3FFF, rWO 0x50 full, rRO 0x54 3,
   ⟨0x60, 1, .w1s, 0, 3⟩, rRO 0x64 2, rRO 0x100 32]

/-- GAFFER page register table (R391). -/
def rowsGaffer : List RegRow :=
  [rRW 0x40 1, rRW 0x44 0x1FF 0x1C2, rRW 0x48 0x7F 0x14, rRW 0x4C full 0x6E69645F,
   rRW 0x50 0x1FF01FF 0xC8012C, rRO 0x54 2, rRC 0x5C, rRO 0x60 4, rRC 0x70, rRO 0x74 1 0x3FFFFFFF,
   rRO 0x78, rRC 0x7C, rWO 0x80 3, rRO 0x84, rRW 0x88 0xFFFF, rRO 0x8C 1 0xF, rRO 0x90 11]

/-- CLAPPER page register table. -/
def rowsClapper : List RegRow :=
  [rRW 0x40 0x1F, rRW 0x44 0x7FFF 0x3E8, rRW 0x48 0xFFFF 0xC8, rRW 0x4C 0xFF 8, rRO 0x50 2,
   rRW 0x58 full 0 2, rRO 0x60 3, rRC 0x6C 2, rRW 0x74 0xFF 0x14]

/-- SCHED page register table. -/
def rowsSched : List RegRow :=
  [rRW 0x40 0x7F01, rRO 0x44, rRO 0x48 1 0xFFFF, rRO 0x4C 3, rRC 0x58 2, rRO 0x60 8,
   rRW 0x80 0xFF 0x10 16, rRC 0xC0]

/-- SCRIPT page register table. -/
def rowsScript : List RegRow :=
  [rRO 0x40 4, rRC 0x50, rRO 0x54, rRC 0x58, rRO 0x5C 1 0xE7EF0]

/-- SEC0 (seal). -/
def rowsSec0 : List RegRow :=
  [rRO 0x40 4, rRW 0x50 0xFFFF, rRW 0x54 0xFFFF, rRO 0x58 30]

/-- SEC1 (firmware). -/
def rowsSec1 : List RegRow :=
  [rRW 0x40 full, rRW 0x44 full, rRW 0x48 0x3FFF, rWO 0x4C 3, rWO 0x50 full, rRO 0x54 5]

/-- SEC2 (signer pins). -/
def rowsSec2 : List RegRow := [rRW 0x40 full 0 256]

/-- SEC3 (identity certificate). -/
def rowsSec3 : List RegRow := [rRW 0x40 0x7FF, rRO 0x44]

/-- PORT page register table; CONT opens with the same rows (R309). -/
def rowsPort (ctrlMask : Nat) : List RegRow :=
  [rRW 0x40 ctrlMask, rRO 0x44, rRO 0x48 1 0xFFFF, rRW 0x4C 0x3FF 0x14, rRW 0x50 0x3FF 0x64,
   rRW 0x54 0xFFFFFF 0x401F4, rRW 0x58 0x3FFF 0x64, rRW 0x5C full 0x100803E8, rRW 0x60 0x7F 0x40,
   rRW 0x64 0xF 2, rRW 0x68 0xFFFF 0x40, rRW 0x6C 0xFF01, rRC 0x70 17, rRO 0xB4 11, rRW 0xE0 0xFF,
   rRO 0xE4 7]

/-- CONT page: the port rows, then its own from 0x100. -/
def rowsCont : List RegRow :=
  rowsPort 1 ++ [rRW 0x100 0xF001F 0x10019, rRO 0x104 3, rRC 0x110 5, rRO 0x124, rRC 0x128]

/-- TWIN page register table. -/
def rowsTwin : List RegRow :=
  [rRW 0x40 0xF13FFF 0x400000, rWO 0x44 0x7F, rRW 0x48 3, rRO 0x4C 2, rRW 0x54 0xFF 0xA, rRW 0x58 0xFF,
   rRW 0x5C full 0 2, rRO 0x64 2, rRC 0x6C 5, rRO 0x80, rRC 0x84, rRO 0x88, rRC 0x8C, rRO 0x90 12]

/-- One rehearsal entry's four registers. -/
def rowsEntry (e : Nat) : List RegRow :=
  [rRW (0x100 + 0x10 * e) full, rRW (0x104 + 0x10 * e) 0x7FFF0FFF, rRW (0x108 + 0x10 * e) full 0 2]

/-- REHEARSAL page register table. -/
def rowsRehearsal : List RegRow :=
  [rRW 0x40 1, rRO 0x44, rRC 0x48 3] ++ (List.range 16).flatMap rowsEntry

/-- DAILIES page register table. -/
def rowsDailies : List RegRow :=
  [rRW 0x40 0xFFF03 0xAFF01, rRO 0x44 3, rRC 0x50, rRW 0x54 full, rRW 0x58 full, rWO 0x5C 3, rRO 0x60 2]

/-- MAG page register table; DIAG_ADDR_LO bits [5:0] are ignored and store nothing. -/
def rowsMag : List RegRow :=
  [rRW 0x40 0xFF 0xF, rRO 0x44, rRC 0x48 8, rRW 0x68 0xFFFF 0x1038, rRO 0x6C 3, rRC 0x78, rRW 0x7C full,
   rRW 0x80 0x3F, rWO 0x84 1, rRO 0x88 2]

/-- PARK page register table. -/
def rowsPark : List RegRow :=
  [rRW 0x40 0xFFFF 0xFF, rRO 0x44, rRC 0x48 7, rRW 0x64 0xFF01FF 0x1000C0, rRO 0x68 3, rRC 0x74]

/-- SPLICER page register table (R201). -/
def rowsSplicer : List RegRow := [rRO 0x40 4, rRC 0x50 5]

/-- Splicer channel page register table (R201). -/
def rowsChannel : List RegRow := [rWO 0x40 3, rRO 0x44 3, rRC 0x50]

/-- TELECINE page register table (R221). -/
def rowsTelecine : List RegRow := [rRO 0x40 3, rRO 0x4C 1 0xFFFFFFFF, rRC 0x50 4]

/-- Telecine stream context page register table (R221). -/
def rowsTcctx : List RegRow := [rWO 0x40 3, rRO 0x44 5, rRC 0x58 5]

/-- FRAMING page register table (R111). -/
def rowsFraming : List RegRow := [rRO 0x40, rRC 0x44 5, rRO 0x58 2]

/-- CUTTER page register table (R166). -/
def rowsCutter : List RegRow := [rRO 0x40 2, rRC 0x48 8, rRW 0x68 full 0 6, rWO 0x80 1, rRO 0x84 4]

/-- FOCUS page register table (R139). -/
def rowsFocus : List RegRow := [rRW 0x40 1, rRO 0x44 2, rRC 0x4C 10]

/-- PRIME page register table (R110). -/
def rowsPrime : List RegRow :=
  [rRW 0x40 1, rRO 0x44, rRO 0x48 1 0xFFFF, rRC 0x4C 7, rRO 0x68 2, rWO 0x70 1, rRO 0x74 2]

/-- DRAW page register table (R139). -/
def rowsDraw : List RegRow := [rRW 0x40 1, rRO 0x44 2, rRC 0x4C 6]

/-- PARTITION page register table; the totals follow R266. -/
def rowsPartition : List RegRow :=
  [rWO 0x40 7, rRO 0x44, rRW 0x48 0xFF00FF, rRW 0x4C 0x3FF01FF, rRW 0x50 0xFFFFFF, rRW 0x54 0xFFFFF,
   rRW 0x58 0x1FFFFF, rRW 0x5C full, rRW 0x60 full, rRW 0x64 0x1FFF 0x40, rRW 0x68 full,
   rRW 0x6C full, rRW 0x70 0x1FFFF 0x40, rRW 0x74 full, rRW 0x78 full, rRW 0x7C 0x1FFFF 0x40,
   rRO 0x80 4, rRC 0x100 7, rRC 0x120 6, rRC 0x140 10, rRC 0x170 8, rRC 0x190 5, rRC 0x1B0 9, rRC 0x1E0 5]

/-- D2D page register table (R246). -/
def rowsD2d : List RegRow :=
  [rRO 0x40, rRC 0x44 4, rRO 0x54 9, rRC 0x78, rRO 0x7C, rRC 0x80 3, rRO 0x8C 3, rRC 0x98 3]

/-- The register table of a page (R251). -/
def pageRows (pg : Nat) : List RegRow :=
  match pageKind pg with
  | .none => []
  | .global => rowsGlobal
  | .gaffer => rowsGaffer
  | .clapper => rowsClapper
  | .sched => rowsSched
  | .script => rowsScript
  | .sec => if pg = 8 then rowsSec0 else if pg = 9 then rowsSec1 else if pg = 10 then rowsSec2
            else if pg = 11 then rowsSec3 else []
  | .twin => rowsTwin
  | .cont => rowsCont
  | .rehearsal => rowsRehearsal
  | .dailies => rowsDailies
  | .port => rowsPort 0x7F
  | .mag => rowsMag
  | .park => rowsPark
  | .splicer => rowsSplicer
  | .channel => rowsChannel
  | .telecine => rowsTelecine
  | .tcctx => rowsTcctx
  | .framing => rowsFraming
  | .cutter => rowsCutter
  | .focus => rowsFocus
  | .prime => rowsPrime
  | .draw => rowsDraw
  | .partition => rowsPartition
  | .d2d => rowsD2d

def findRow (rows : List RegRow) (off : Nat) : Option RegRow :=
  rows.find? fun r => decide (r.off ≤ off) && decide (off < r.off + 4 * r.n)

/-- The table row of a block-specific register; none for a reserved register (R430). -/
def regRow (pg off : Nat) : Option RegRow := findRow (pageRows pg) off

/-- Register key: the byte offset in BAR0 (R228). -/
def rk (pg off : Nat) : Nat := pg * 0x1000 + off

/-- Reset value of the register at a key (R14); reserved registers read 0 (R430). -/
def regReset (key : Nat) : Word :=
  match regRow (key / 0x1000) (key % 0x1000) with
  | some r => word r.reset
  | none => 0

/-- Defined block-event bits of a kind (BLK_EVT tables), with the common events [7:0]. -/
def evtMask : PageKind → Nat
  | .none => 0
  | .global => 0x7FF
  | .gaffer => 0x3FFFFFFF
  | .clapper => 0xFFFF
  | .sched => 0x7FFF
  | .script => 0x7FF
  | .sec => 0xFFFF
  | .twin => 0xFFFFFFF
  | .cont => 0xFFFFFFF
  | .rehearsal => 0x1FFF
  | .dailies => 0xFFF
  | .port => 0xFFFFFFF
  | .mag => 0x7FFFF
  | .park => 0x3FFFF
  | .splicer => 0x3FF
  | .channel => 0x7FF
  | .telecine => 0x3FF
  | .tcctx => 0x1FFF
  | .framing => 0x3FFF
  | .cutter => 0x3FFF
  | .focus => 0x7FFF
  | .prime => 0x7FFF
  | .draw => 0x1FFF
  | .partition => 0x7FFF
  | .d2d => 0xFFFF

/-- Defined event bits of one page; the four SEC pages have tables of their own. -/
def pageEvtMask (pg : Nat) : Nat :=
  if pg = 9 then 0x1FFF else if 10 ≤ pg && pg < 16 then 0xFF else evtMask (pageKind pg)

/-- Domain of a page's block (R367), by number. -/
def pageDomain (pg : Nat) : Nat :=
  match pageKind pg with
  | .gaffer | .twin => 0
  | .sec => 1
  | .global | .clapper | .sched | .script | .rehearsal | .dailies | .splicer | .channel | .partition => 2
  | .prime => 3 + (pg - 0x100) / 16
  | .draw => 17 + (pg - 0x1E0) / 16
  | .focus => 19 + (pg - 0xB0) / 8
  | .framing | .cutter => 21
  | .telecine | .tcctx => 22
  | .mag => 23 + (pg - 0x20) / 4
  | .park => 25
  | .port => 26
  | .cont => 27
  | .d2d => 28
  | .none => 0

/-- A 64-bit read-only pair: reading `lo` latches `lo + 4` (the "A read latches …" notes of the tables). -/
def latchesHi (pg off : Nat) : Bool :=
  match pageKind pg with
  | .global => off = 0x64
  | .clapper => off = 0x50 || off = 0x60
  | .twin => off = 0x64 || off = 0x90 || off = 0xB8
  | .prime => off = 0x68
  | .tcctx => off = 0x50
  | .dailies => off = 0x44
  | .sec => pg = 8 && off = 0x68
  | _ => false

end Sys2Proof.Machine
end

