-- ==== Sys2Proof/Machine/SMap.lean ====
section
/-! DEFINITION. Sparse maps with a default: the one canonical form in which the model holds registers,
memories and tables.  A map lists (key, value) pairs with strictly rising keys, and no entry equals the
default of its key, so equal maps are equal data. -/
namespace Sys2Proof.Machine

/-- A sparse map from natural numbers. -/
abbrev SMap (α : Type) := List (Nat × α)

/-- The value at `k`: the listed one, or the default `d k`. -/
def mget {α : Type} (d : Nat → α) (m : SMap α) (k : Nat) : α :=
  match m with
  | [] => d k
  | (k', v) :: r => if k' = k then v else mget d r k

/-- `m` with `v` listed at `k`, at its place in the rising order. -/
def mins {α : Type} (m : SMap α) (k : Nat) (v : α) : SMap α :=
  match m with
  | [] => [(k, v)]
  | (k', v') :: r =>
    if k < k' then (k, v) :: (k', v') :: r
    else if k = k' then (k, v) :: r
    else (k', v') :: mins r k v

/-- `m` without an entry at `k`. -/
def mdel {α : Type} (m : SMap α) (k : Nat) : SMap α :=
  match m with
  | [] => []
  | (k', v') :: r => if k' = k then mdel r k else (k', v') :: mdel r k

/-- Write `v` at `k`: a value equal to the default removes the entry, so the form stays canonical. -/
def mset {α : Type} [DecidableEq α] (d : Nat → α) (m : SMap α) (k : Nat) (v : α) : SMap α :=
  if v = d k then mdel m k else mins m k v

/-- Keys of the map rise strictly, starting above every key below `lo`. -/
def mrising {α : Type} (lo : Nat) (m : SMap α) : Bool :=
  match m with
  | [] => true
  | (k, _) :: r => decide (lo ≤ k) && mrising (k + 1) r

/-- No entry equals its key's default. -/
def mnontrivial {α : Type} [DecidableEq α] (d : Nat → α) (m : SMap α) : Bool :=
  m.all fun e => !decide (e.2 = d e.1)

/-- The canonical form. -/
def mwf {α : Type} [DecidableEq α] (d : Nat → α) (m : SMap α) : Bool :=
  mrising 0 m && mnontrivial d m

/-- Update the value at `k` with `f`. -/
def mmod {α : Type} [DecidableEq α] (d : Nat → α) (m : SMap α) (k : Nat) (f : α → α) : SMap α :=
  mset d m k (f (mget d m k))

/-- Write the values of `vs` at `k`, `k + 1`, … in turn. -/
def msetMany {α : Type} [DecidableEq α] (d : Nat → α) (m : SMap α) (k : Nat) (vs : List α) : SMap α :=
  match vs with
  | [] => m
  | v :: r => msetMany d (mset d m k v) (k + 1) r

/-- The `n` values at `k`, `k + 1`, …. -/
def mgetMany {α : Type} (d : Nat → α) (m : SMap α) (k n : Nat) : List α :=
  match n with
  | 0 => []
  | n + 1 => mget d m k :: mgetMany d m (k + 1) n

/-- `m` with no entry whose key satisfies `p`. -/
def mdrop {α : Type} (p : Nat → Bool) (m : SMap α) : SMap α :=
  m.filter fun e => !p e.1

end Sys2Proof.Machine
end

