-- ==== Sys2Proof/Machine/State.lean ====
section
/-! DEFINITION. The state of the block: every register, store, FIFO, buffer, counter, mode and pin the spec
gives the module, as plain data, and the queue of waiting commands.  INVENTORY.md lists each piece with its
rule and reset value. -/
namespace Sys2Proof.Machine

/-- Reasons a command stops the machine.  Every meaning answers a next state, so the type has one reason only. -/
inductive Fault where
  /-- Raised by no command of this model: a halt is the command's effect on a unit's state (R393).  Safe. -/
  | stuck
  deriving DecidableEq, Repr

/-- Reasons a command is turned away. -/
inductive Refusal where
  /-- The command has no meaning yet.  Raised only by an arm of exec.  Safe. -/
  | notModelled (mnemonic : String)
  deriving DecidableEq, Repr

/-! ### Registers -/

/-- A page's common header (R252). -/
structure Hdr where
  enable : Bool := true
  lock : Bool := false
  freeze : Bool := false
  rstBusy : Bool := false
  evt : Word := 0
  evtEn : Word := 0
  perr : Word := 0
  faddr : Nat := 0
  finfo : Word := 0
  owner : Nat := 0
  synth : Bool := false
  /-- The latched fault arose while the owner was a tenant (R262). -/
  tenantFault : Bool := false
  deriving DecidableEq, Repr

/-- The header after power-on and MRST_N (R252). -/
def hdrReset (pg : Nat) : Hdr :=
  if pageKind pg = .partition then { enable := false, owner := pg - 0x200 } else {}

/-- The register file. -/
structure RegFile where
  /-- Block-specific registers, as last written or counted; unlisted registers hold their reset value. -/
  cur : SMap Word := []
  /-- In-force copies of the registers whose writes take effect at a slate. -/
  force : SMap Word := []
  /-- Keys written since the last slate whose value takes force at the next one. -/
  due : List Nat := []
  /-- The model's own: reads that a magazine controller, by page, has served; it numbers their free times (log entry 3). -/
  served : SMap Nat := []
  /-- Common headers by page. -/
  hdr : SMap Hdr := []
  /-- Values that frozen pages show, by register key (R258, R259). -/
  held : SMap Word := []
  /-- Pages held by the last snapshot (R259). -/
  snapHeld : Bool := false
  /-- Tick number of the slate of the last snapshot. -/
  snapTick : Nat := 0
  deriving DecidableEq, Repr

/-- Actions that a write placed at the next slate (R249). -/
inductive SlateAct where
  | snap | release
  | mapCrcClr (c : Nat)
  | uncommit (p : Nat)
  deriving DecidableEq, Repr

/-! ### The Clapper and the time base -/

/-- The Clapper (R28–R34). -/
structure Clapper where
  /-- Number of the last slate (TICK_NUM). -/
  num : Nat := 0
  /-- Has a slate been issued since RUN went to 1? -/
  first : Bool := true
  /-- RUN in force (R31). -/
  run : Bool := false
  /-- Instant of the next slate, when its source has set it. -/
  due : Option Nat := none
  /-- Expected instant E(T) of the next slate's cause: the last accepted edge C plus k periods (R29), or the
  timer's own instant. -/
  expect : Nat := 0
  /-- Has an edge been accepted since RUN went to 1? -/
  haveEdge : Bool := false
  /-- Has the current window's edge been accepted? -/
  winTaken : Bool := false
  /-- The next slate is a holdover slate. -/
  nextHold : Bool := false
  /-- The next slate is a predicted slate. -/
  nextPred : Bool := false
  /-- TICK of the accepted slate frame for the next slate. -/
  nextTick : Option Nat := none
  /-- HOLDOVER of that frame. -/
  nextFrameHold : Bool := false
  /-- A slate has been issued since the last reset. -/
  ever : Bool := false
  /-- Last slate was a holdover slate. -/
  hold : Bool := false
  /-- Last slate was a predicted slate. -/
  pred : Bool := false
  /-- The frame of the last slate carried HOLDOVER (R299). -/
  frameHold : Bool := false
  /-- Consecutive holdover or predicted slates. -/
  misses : Nat := 0
  /-- CLAP_LOST or SLATE_FRAME_LOST has been raised in this run of misses. -/
  lost : Bool := false
  /-- LOCKED of BLK_STAT. -/
  locked : Bool := false
  /-- The frame of the next slate has been sent (R299). -/
  frameSent : Bool := false
  /-- Instant of the last slate. -/
  last : Nat := 0
  /-- Cue reference instant of the last slate (R53). -/
  ref : Nat := 0
  /-- Last announced instant on the 1588 clock, in ns (R32). -/
  announced : Nat := 0
  /-- The accepted frame of the next slate: (tick, ns, period, source, take epoch), for R300. -/
  accepted : Option (Nat × Nat × Nat × Nat × Nat) := none
  /-- LEAD_TWIN of an accepted frame (R300). -/
  leadTwin : Option Nat := none
  /-- Highest TAKE_EPOCH accepted from a slate frame (R300). -/
  frameEpoch : Nat := 0
  /-- SLATE_TS of the last slate, in ns. -/
  ts : Nat := 0
  /-- OFFSET of R34, in ns. -/
  offset : Nat := 0
  /-- Backward step to add to OFFSET at the next slate (R34). -/
  stepBack : Nat := 0
  /-- T(n) of the last slate (R34). -/
  sec : Nat := 0
  /-- T of the slate before the last. -/
  prevSec : Nat := 0
  /-- Signed offset of the last accepted edge, in 2.5 ns units (CLAP_PHASE). -/
  phase : Int := 0
  deriving DecidableEq, Repr

/-- The 1588 time base (R271, R272). -/
structure Ptp where
  /-- 1588 time, in ns, at instant `mark`. -/
  base : Nat := 0
  mark : Nat := 0
  locked : Bool := false
  /-- Consecutive Syncs within ±20 ns. -/
  good : Nat := 0
  /-- Selected port. -/
  port : Option Nat := none
  /-- Best rank seen, by port. -/
  ranks : SMap Nat := []
  pathDelay : SMap Nat := []
  offset : Int := 0
  deriving DecidableEq, Repr

/-! ### Requests, rings and reels -/

/-- A record written to a ring (R46). -/
structure Rec where
  seq : Nat := 0
  kind : Nat
  cls : Nat := 0
  reason : Nat := 0
  tag : Nat := 0
  slate : Nat := 0
  handle : Nat := 0
  slot : Nat := 0xFFFF
  part : Nat := 0
  flags : Nat := 0
  data : Bytes := []
  deriving DecidableEq, Repr

/-- A BATCH_RUN outstanding (R43). -/
structure Batch where
  p : Nat
  slot : Nat
  req : Req
  /-- CTX_CANCEL accepted for it: (seq, slot, tag) of the cancel. -/
  cancel : Option (Nat × Nat × Nat) := none
  failed : Bool := false
  rehearsal : Bool := false
  deriving DecidableEq, Repr

/-- A CTX_STEP run (R151). -/
structure Run where
  p : Nat
  idx : Nat
  slot : Nat
  req : Req
  /-- Handle of the reel that steps the run. -/
  reel : Nat
  /-- Tokens selected by the run. -/
  count : Nat := 0
  /-- Rows of the step in flight: (position, token). -/
  rows : List (Nat × Nat) := []
  /-- A step is in flight. -/
  flying : Bool := false
  /-- The step in flight is the prefill. -/
  prefill : Bool := false
  /-- Steps of the run that have completed and are not recorded: prefill chunks, or the decode step (R151). -/
  doneSteps : Nat := 0
  /-- Selections of the step's rows: none is NO_TOKEN (R160). -/
  sel : List (Option Nat) := []
  /-- Grammar state after each selection. -/
  gstates : List Nat := []
  /-- Each selection ended the grammar (R164): 0 no, 1 GRAMMAR_END, 2 STOP off the edges. -/
  gends : List Nat := []
  failed : Bool := false
  /-- Committed state was lost (R156). -/
  lostState : Bool := false
  drafts : Nat := 0
  cancel : Option (Nat × Nat × Nat × Bool) := none
  /-- First slate at which the next step may be dispatched. -/
  nextAt : Nat := 0
  rehearsal : Bool := false
  deriving DecidableEq, Repr

/-- A park or resume copy (R157, R159). -/
structure Copy where
  p : Nat
  idx : Nat
  slot : Nat
  req : Req
  resume : Bool
  /-- The copy has ended; its completion is at the next slate. -/
  ended : Bool := false
  parity : Bool := false
  /-- A CTX_CANCEL with RETIRE has been taken (R146, R150). -/
  cancelled : Bool := false
  deriving DecidableEq, Repr

/-- A context descriptor (R141). -/
structure Desc where
  state : Nat := 0
  cause : Nat := 0
  endCode : Nat := 0
  hasLast : Bool := false
  run : Bool := false
  index : Nat := 0
  ver : Nat := 0
  reel : Nat := 0
  grammar : Nat := 0
  pos : Nat := 0
  lastToken : Nat := 0
  step : Nat := 0
  gen : Nat := 0
  gramState : Nat := 0
  lg : Nat := 0
  slotBytes : Nat := 0
  cacheAddr : Nat := 0
  cacheLen : Nat := 0
  params : Bytes := []
  deadline : Nat := 0
  parkFirst : Nat := 0
  parkGran : Nat := 0
  runSeq : Nat := 0
  runSlot : Nat := 0
  runOp : Nat := 0
  runOut : Nat := 0
  runLeft : Nat := 0
  runCount : Nat := 0
  runReel : Nat := 0
  geom : Bytes := []
  deriving DecidableEq, Repr

/-- A loaded reel (R35, R40). -/
structure Reel where
  p : Nat
  handle : Nat
  cls : Nat
  way : Nat := 0
  groupSize : Nat := 1
  grammar : Bool := false
  image : Bytes := []
  /-- Physical prime cell of each virtual cell of a class A reel (R37). -/
  cells : List Nat := []
  /-- Physical Telecine contexts of virtual contexts 0, 1, … -/
  teleCtx : List Nat := []
  /-- Physical Splicer channels of virtual channels 0, 1, … -/
  channels : List Nat := []
  /-- First entry of the reel in the Splicer's descriptor store, and entries held. -/
  splFirst : Nat := 0
  splCount : Nat := 0
  /-- T0 for class A, else the slate of the COMPLETED record. -/
  loadTick : Nat := 0
  /-- Partition-space address of the image (ADDR0 of its REEL_LOAD). -/
  loadAddr : Nat := 0
  /-- First dispatch made (R36). -/
  dispatched : Bool := false
  /-- STOP_TICK's U once an unload is accepted (R41). -/
  unloadAt : Option Nat := none
  /-- The accepted unloads: (slot, request). -/
  unloadReqs : List (Nat × Req) := []
  /-- Takes no more input or dispatch (R41). -/
  stopped : Bool := false
  cueFlush : Bool := false
  reelDigest : Bytes := []
  programDigest : Bytes := []
  weightsDigest : Bytes := []
  signerDigest : Bytes := []
  deriving DecidableEq, Repr

/-- A REEL_LOAD accepted and not completed (R40). -/
structure Load where
  p : Nat
  slot : Nat
  req : Req
  at' : Nat
  deriving DecidableEq, Repr

/-! ### Work items -/

/-- Item states in the scoreboard (R48). -/
inductive ItemSt where
  | waiting | running | done | halted
  deriving DecidableEq, Repr

/-- A scoreboard entry (R48). -/
structure Item where
  id : Nat
  p : Nat
  cls : Nat
  handle : Nat
  /-- Index in the call sheet. -/
  idx : Nat
  /-- Class A: input tick. -/
  tick : Nat := 0
  /-- Class B: context index. -/
  ctx : Nat := 0
  /-- Class B: step number WHEN. -/
  step : Nat := 0
  /-- Class C: request slot. -/
  slot : Nat := 0
  /-- UNIT of the call sheet. -/
  unit : Nat
  /-- Register page of the physical unit. -/
  page : Nat
  start : Nat := 0
  cycles : Nat := 0
  /-- Ids of predecessors outstanding. -/
  preds : List Nat := []
  op : Nat := 0
  desc : Nat := 0
  st : ItemSt := .waiting
  /-- CLASSA_LATE has been raised for it. -/
  late : Bool := false
  rehearsal : Bool := false
  /-- Item whose data halted it: 0 none, else the fault code of R395. -/
  haltCode : Nat := 0
  /-- Items of other contexts whose rows this item's execution on a draw cell batches (R114). -/
  riders : List Nat := []
  deriving DecidableEq, Repr

/-- One input tick of the loaded class A reel (R52, R325). -/
structure TickRun where
  tick : Nat
  p : Nat
  handle : Nat
  /-- Every class A item of it has completed. -/
  complete : Bool := false
  /-- It can never complete (R393). -/
  dead : Bool := false
  /-- TICK_LATE written. -/
  lateWritten : Bool := false
  published : Bool := false
  /-- First slate since its completion has not passed (a completion becomes visible at a slate). -/
  count : Nat := 0
  dets : Bytes := []
  outOffset : Nat := 0
  cues : Bytes := []
  state : Bytes := []
  digest : Bytes := []
  /-- Fill ranges of R297, as 24-byte entries. -/
  fills : Bytes := []
  /-- Inputs complete by slate N + 1 (R398 LATE_RUN). -/
  onTimeInput : Bool := true
  valid : Bool := false
  verdict : Nat := 0
  rehearsal : Bool := false
  /-- Junction temperature, LOAD_SIG and level of the tick that ran its items (R320). -/
  tj : Int := 0
  load : Nat := 0
  lvl : Nat := 0
  deriving DecidableEq, Repr

/-- A cue edge in a queue (R53). -/
structure Cue where
  level : Bool
  slate : Nat
  off : Nat
  tick : Nat := 0
  deriving DecidableEq, Repr

/-- A channel message of a take conversation (R295, R296). -/
structure TakeMsg where
  ch : Nat
  tick : Nat
  /-- Byte ranges received from the grabber and from the twin, as (offset, length), rising and apart. -/
  got : List (Nat × Nat) := []
  twinGot : List (Nat × Nat) := []
  done : Bool := false
  filled : Bool := false
  /-- Counted late at slate T + 1. -/
  late : Bool := false
  /-- Instant at which its last byte was written (R10). -/
  doneAt : Nat := 0
  /-- Port on which it last arrived. -/
  port : Nat := 0
  deriving DecidableEq, Repr

/-- The scheduler (R44–R54). -/
structure Sched where
  /-- Shadows: last SEQ taken, by p × 4096 + slot (R44). -/
  shadow : SMap Nat := []
  /-- PRODUCED of result rings and tick rings, by partition (R46). -/
  resProduced : SMap Nat := []
  tickProduced : SMap Nat := []
  /-- Reserved completion records, by partition (R44, R47). -/
  reserved : SMap Nat := []
  /-- FAULT records of the next slate, by arrival (R395). -/
  faults : List Rec := []
  reels : List Reel := []
  loads : List Load := []
  batches : List Batch := []
  items : List Item := []
  nextId : Nat := 1
  ticks : List TickRun := []
  takes : List TakeMsg := []
  /-- Cue queues 0 to 7 (R53). -/
  cues : SMap (List Cue) := []
  /-- Levels that the queues last gave, by output. -/
  cueLevel : SMap Bool := []
  /-- Class A granules used in this tick. -/
  usedRd : Nat := 0
  usedWr : Nat := 0
  shareExc : Bool := false
  /-- A class A tick's state is broken since this tick (R394). -/
  breakAt : Option Nat := none
  /-- LATE_RUN count (R398). -/
  lateRun : Nat := 0
  swept : Nat := 0
  sweepCycles : Nat := 0
  /-- A failed read cut the last slate's sweep short (R45). -/
  sweepCut : Bool := false
  /-- Requests left in their slots for want of room, by partition (R44). -/
  deferred : SMap Nat := []
  /-- Handles given back since the last slate, which the next slate may issue again (R40): (partition, handle). -/
  spent : List (Nat × Nat) := []
  deriving DecidableEq, Repr

/-- The script core (R54, R143, R387). -/
structure Script where
  /-- FW_STAT [3:0]. -/
  stat : Nat := 0
  sigOk : Bool := false
  ver : Nat := 0
  svn : Nat := 0
  digest : Bytes := []
  heartbeat : Nat := 0
  ctxs : SMap Desc := []
  runs : List Run := []
  copies : List Copy := []
  /-- The last slate's context work is unfinished (R54, SCRIPT_STALL). -/
  stalled : Bool := false
  /-- HEARTBEAT had not advanced when the last slate came. -/
  lateDue : Bool := false
  /-- Completions of an unfinished slate, for the next one: (partition, slot, reason, request). -/
  deferred : List (Nat × Nat × Nat × Req) := []
  coreHalted : Bool := false
  /-- Runs outstanding when the core was reset (R387). -/
  resetPending : Bool := false
  /-- Hot descriptors, the most recently used first (R143). -/
  hot : List Nat := []
  deriving DecidableEq, Repr

/-! ### Partitions, stores and keys -/

/-- A partition (PARTITION page state, R263–R266, R238–R241, R345–R349). -/
structure Part where
  enabled : Bool := false
  scrubbing : Bool := false
  scrubOk : Bool := false
  scrubFailed : Bool := false
  /-- A counter burn precedes the scrub writes (R348). -/
  burning : Bool := false
  /-- Commands accepted for the next slate. -/
  scrubReq : Bool := false
  changeReq : Bool := false
  prstReq : Bool := false
  /-- Tick at which PRST was written: the reset acts at a later slate. -/
  prstAt : Nat := 0
  prstBusy : Bool := false
  enableReq : Option Bool := none
  bound : Bool := false
  domain : Nat := 0
  bindEpoch : Nat := 0
  lastDomain : Option Nat := none
  /-- T_p at the last BIND (R349). -/
  bindT : Nat := 0
  /-- T_p (R345). -/
  t : Nat := 0
  /-- NONCE of the latest REPORT and the instant it was delivered. -/
  nonce : Option (Bytes × Nat) := none
  /-- BIND accepted, waiting for its slate: DOMAIN, tick at acceptance. -/
  bindReq : Option (Nat × Nat) := none
  unbindReq : Option Nat := none
  exposed : Bool := false
  deriving DecidableEq, Repr

/-- One magazine controller or the park controller (R171, R181). -/
structure Ctl where
  /-- Links or interfaces up. -/
  up : Nat := 0
  /-- Trainings in progress. -/
  training : Nat := 0
  /-- HOT per interface (park only). -/
  hot : Nat := 0
  /-- SCRUB_STAT: 0 idle, 1 active, 2 DONE, 3 FAILED. -/
  scrub : Nat := 0
  scrubPart : Nat := 0
  ptr : Nat := 0
  left : Nat := 0
  /-- A scrub write met an error. -/
  scrubErr : Bool := false
  /-- Granules of the scrub in progress that PARITY_WR left poisoned. -/
  scrubBad : List Nat := []
  /-- A warm reset stopped the share until the next slate (R184). -/
  paused : Bool := false
  /-- Partitions whose shares wait for this controller. -/
  scrubQueue : List Nat := []
  diag : Nat := 0
  deriving DecidableEq, Repr

/-- A range that scrub writes covered on one link: 0 to 31 an octal link, 32 + i park interface i. -/
structure Zeroed where
  link : Nat
  lo : Nat
  hi : Nat
  key : Nat
  deriving DecidableEq, Repr

/-- A scrub of partition p: the controllers that ended their shares, whether one failed, and the tick of the last end. -/
structure ScrubRec where
  p : Nat
  ended : List Nat := []
  failed : Bool := false
  last : Nat := 0
  deriving DecidableEq, Repr

/-- The two stores (R172–R178): plaintext bytes by physical address, one entry per byte that differs from 0. -/
structure Stores where
  main : List Host.Cell := []
  park : List Host.Cell := []
  /-- Failing bytes of bad granules, by granule number: a map of 64 bits (R176, R179).  Poison is all ones. -/
  badMain : SMap Nat := []
  badPark : SMap Nat := []
  /-- The key under which a written granule lies in the store (log entry 7): 0 as `zeroed` says, 1 no key, else the
  partition, tenancy value and power session of the key pair. -/
  mainTag : SMap Nat := []
  parkTag : SMap Nat := []
  /-- What scrubs have written, newest first: zero plaintext under a key (R180). -/
  zeroed : List Zeroed := []
  /-- Granules whose next access the magazine reports as a command that it cannot carry out (R170). -/
  reported : List Nat := []
  /-- Magazine controllers 0 to 7 and the park controller, 8. -/
  ctl : SMap Ctl := []
  /-- Scrubs whose shares are outstanding (R181). -/
  scrubs : List ScrubRec := []
  /-- Granules of the park quota in use, by partition: (first, count, context index). -/
  parkUse : SMap (List (Nat × Nat × Nat)) := []
  deriving DecidableEq, Repr

/-- The seal (R344–R353, R358, R359). -/
structure Seal where
  keysReady : Bool := false
  rngOk : Bool := false
  /-- BOOT_NONCE, known only by the number of the draw that gave it. -/
  bootNonce : Nat := 0
  counter : Nat := 0
  spares : Nat := 64
  fuseState : Nat := 0xF
  svnFloor : Nat := 0
  storeValid : Bool := true
  storeVer : Nat := 0x03020000
  storeSvn : Nat := 0
  storeDigest : Bytes := []
  /-- FW_RESULT [3:0]. -/
  fwResult : Nat := 0
  fwInstall : Bool := false
  stagedVer : Nat := 0
  stagedSvn : Nat := 0
  /-- The image that the seal copied at FW_CMD (R352); none after a failed read. -/
  staged : Option Bytes := none
  /-- The store write is running. -/
  writing : Bool := false
  progress : Nat := 0
  tapOpen : Bool := false
  consoleOpen : Bool := false
  pinTaken : Bool := false
  coreHaltSeen : Bool := false
  sessions : Nat := 0
  lastDebug : Nat := 0
  deriving DecidableEq, Repr

/-! ### Units -/

/-- A work unit that runs items: prime cell, draw cell, focus pipe, Cutter or Framing unit.  Keyed by page. -/
structure Unit' where
  /-- Holding or last item's reel and mode, as CELL_STAT shows. -/
  holder : Nat := 0
  reel : Nat := 0
  /-- 0 idle, 1 class A mapping, 2 dispatched work. -/
  hold : Nat := 0
  vcell : Nat := 0xFFFF
  item : Nat := 0
  busy : Bool := false
  /-- Partition whose data the storage last held (R359). -/
  residue : Option Nat := none
  /-- Can or stream buffer bytes. -/
  can : List Host.Cell := []
  /-- Contact-sheet bytes (prime), expander store (focus). -/
  aux : List Host.Cell := []
  /-- The arrays' two ledger sets: 24-byte records of a block each (R80). -/
  ledgers : List Bytes := []
  canPages : Nat := 0
  csPages : Nat := 0
  /-- MAP_CRC (R98). -/
  mapCrc : Nat := 0
  halo : Nat := 0
  /-- FENCE written while class A holds the unit: recorded for its unload (R107). -/
  fencePending : Bool := false
  /-- Halo bytes that the cell's HALO items hold now, by item (R88). -/
  halos : SMap Nat := []
  /-- Resident up-projection key (R131): (reel, partition, layer, group). -/
  storeKey : Option (Nat × Nat × Nat × Nat) := none
  deriving DecidableEq, Repr

/-- A Splicer channel (R190–R198). -/
structure Channel where
  /-- 0 idle, 1 armed, 2 running, 3 halted. -/
  st : Nat := 0
  eligible : Bool := false
  pendingFire : Bool := false
  classA : Bool := false
  vch : Nat := 0
  reel : Nat := 0
  part : Nat := 0
  /-- Item that holds it, 0 for none. -/
  item : Nat := 0
  /-- First descriptor and current descriptor, as store indices. -/
  first : Nat := 0
  desc : Nat := 0
  done : Nat := 0
  firesLeft : Nat := 0
  runsLeft : Nat := 0
  deriving DecidableEq, Repr

/-- A decoded picture that waits for its turn in output order (R218). -/
structure DecPic where
  pic : Nat
  poc : Int
  /-- CORRUPT, HASH_OK, HASH_BAD. -/
  flags : Nat
  w : Nat
  h : Nat
  frame : Bytes
  deriving DecidableEq, Repr

/-- A Telecine stream context (R203–R220). -/
structure TeleCtx where
  /-- 0 free, 1 encode, 2 decode. -/
  mode : Nat := 0
  /-- 0 idle, 1 running, 2 halted, 3 waiting. -/
  st : Nat := 0
  classA : Bool := false
  vctx : Nat := 0
  reel : Nat := 0
  part : Nat := 0
  pic : Nat := 0
  qp : Nat := 0
  interPic : Bool := false
  full : Int := 0
  produced : Nat := 0
  statProduced : Nat := 0
  consumed : Nat := 0
  outCount : Nat := 0
  item : Nat := 0
  picsLeft : Nat := 0
  slice : Nat := 0
  picBytes : Nat := 0
  /-- Slices already written of the halted picture. -/
  slicesDone : Nat := 0
  /-- Pictures completed since load. -/
  done : Nat := 0
  /-- Operation descriptor, tile number and input tick of the item that runs here. -/
  desc : Bytes := []
  tile : Nat := 0
  tick : Nat := 0
  forceIdr : Bool := false
  skipping : Bool := false
  /-- Pictures reconstructed since load, and those since the last IDR, which P pictures refer to (R212). -/
  recons : Nat := 0
  sinceIdr : Nat := 0
  /-- NAL bytes of the picture so far (R215). -/
  nalBytes : Nat := 0
  /-- DECODE: the parameter sets in force, the pictures that may wait, the picture size, the pictures that wait for their turn in
  output order, and those whose turn has come (R218). -/
  params : Bytes := []
  reorder : Nat := 0
  size : Nat × Nat := (0, 0)
  dpb : List DecPic := []
  due : List DecPic := []
  deriving DecidableEq, Repr

/-- The Splicer (R186–R192). -/
structure Splicer where
  chan : SMap Channel := []
  /-- Descriptor store: 32-byte descriptors by index (R187). -/
  store : SMap Bytes := []
  slot : Option Nat := none
  deriving DecidableEq, Repr

/-- Telecine (R202–R220). -/
structure Telecine where
  ctx : SMap TeleCtx := []
  /-- Context in the engine. -/
  engine : Option Nat := none
  gapMax : Nat := 0xFFFFFFFF
  deriving DecidableEq, Repr

/-- The Cutter's known-answer generator (R166). -/
structure Kat where
  busy : Bool := false
  key0 : Word := 0
  key1 : Word := 0
  ctr : List Word := []
  deriving DecidableEq, Repr

/-- Units, streams and mixdown tiles. -/
structure Units where
  /-- By page: PRIME, DRAW, FOCUS, CUTTER, FRAMING. -/
  unit : SMap Unit' := []
  /-- Bytes in flight between cells, by (first item id of the dispatch, 0 for class A) × 65536 + 2 × sending cell + port;
  an EMIT item's candidates stand under its own id and stream 65535. -/
  streams : SMap Bytes := []
  /-- Bytes moved on each main-store stream: first item id of the dispatch × 65536 + 4 × cell + 2 × outbound + port. -/
  streamPos : SMap Nat := []
  /-- Ledgers held for a MIX item: item id → list of (tile, ledger records). -/
  mixes : SMap (List (Nat × Bytes)) := []
  /-- Contributions taken: (WHEN, item, member + 256 × port, records); a member number of 255 marks closed values (R137, R305). -/
  contribs : List (Nat × Nat × Nat × Bytes) := []
  /-- Identities (WHEN, item) that a conflict spoiled before or while their item ran (R137). -/
  mixBad : List (Nat × Nat) := []
  kat : Kat := {}
  /-- Deficit round-robin of class B by unit (R49): deficits by page × 16 + partition, and the partition served last by page. -/
  deficit : SMap Nat := []
  lastServed : SMap Nat := []
  /-- Cycles of class B and of class C items begun on a unit in this tick, by page (R49). -/
  servedB : SMap Nat := []
  servedC : SMap Nat := []
  /-- Duplicates dropped (MIX_DUP of R137). -/
  mixDup : Nat := 0
  /-- Logit rows handed to the Cutter, by LOGITS item id. -/
  logits : SMap (List Bytes) := []
  deriving DecidableEq, Repr

/-! ### Host attachment -/

/-- Word w of the MSI-X table after reset: the mask bit of each vector control is 1 (log entry 23). -/
def msixReset (w : Nat) : Word := if w % 4 = 3 then 1 else 0

/-- What the function's configuration space reports of its options (R227); nothing writes it, and a warm reset keeps it (R385). -/
structure CfgSpace where
  functions : Nat := 1
  /-- Device cache size in the CXL DVSEC. -/
  cacheSize : Nat := 0
  hdmDecoders : Nat := 16
  doeMailboxes : Nat := 1
  msixVectors : Nat := 64
  /-- Bytes of a flit: the 68-byte and latency-optimised modes are not offered. -/
  flitBytes : Nat := 256
  deriving DecidableEq, Repr

/-- The die-to-die link and the CXL function (R222–R246). -/
structure D2d where
  up : Bool := false
  ready : Bool := false
  /-- The always-on monitor has released the director die (R222, R388 stage 3). -/
  director : Bool := false
  cfg : CfgSpace := {}
  /-- IDE stream keys of the training: CXL.io toward the Zhodex die and back, then CXL.cachemem (R236, R345). -/
  ideKeys : List Bytes := []
  /-- Their invocation counters as the training starts them (R236); the flits that advance them are not counted (log entry 57). -/
  ideCount : List Nat := []
  speed : Nat := 0
  modUp : Nat := 0
  /-- 0 off, 1 secure, 2 insecure. -/
  ide : Nat := 0
  repaired : Nat := 0
  saltZ : Nat := 0
  saltD : Nat := 0
  /-- HDM decoders: committed base by partition (R229). -/
  decoders : SMap (Option Nat) := []
  /-- Snoop filter: granules of the host's caches, oldest first (R232). -/
  snoop : List Nat := []
  /-- Back-invalidates awaiting a response: granule and whether a write waits (R232). -/
  bisnp : List (Nat × Bool) := []
  /-- MSI-X vector latches, bit v (R244). -/
  latch : Nat := 0
  /-- MSI-X table, 4 words a vector (R228); every vector is masked at reset (log entry 23). -/
  msix : SMap Word := []
  /-- DOE request in progress: message, instant of arrival. -/
  doe : Option (DoeMsg × Nat) := none
  /-- A report is being built: partition, nonce, body. -/
  reportBody : Option (Nat × Bytes × Bytes) := none
  deriving DecidableEq, Repr

/-! ### Reel Link Protocol -/

/-- Conversation states (R291, R292). -/
inductive ConvSt where
  | closed | opening | opn | closing | silent
  deriving DecidableEq, Repr

/-- A message that an initiator has queued (R288, R289, R302, R305). -/
structure OutMsg where
  /-- Number of the message in its conversation, the model's own. -/
  uid : Nat := 0
  msg : Nat
  flags : Nat := 0
  item : Nat := 0
  member : Nat := 0
  closed : Bool := false
  /-- OFFSET of the first byte, and MSG_LEN. -/
  off0 : Nat := 0
  total : Nat
  data : Bytes
  deriving DecidableEq, Repr

/-- A frame sent and not acknowledged (R289). -/
structure OutFrame where
  uid : Nat
  f : Frame
  resent : Nat := 0
  resentAt : Option Nat := none
  sacked : Bool := false
  deriving DecidableEq, Repr

/-- A message that a responder is placing (R288). -/
structure InMsg where
  msg : Nat
  msgLen : Nat
  item : Nat := 0
  member : Nat := 0
  closed : Bool := false
  /-- OFFSET that the next frame must carry. -/
  next : Nat := 0
  /-- Bytes so far; a TAKE message's bytes go into the input ring instead. -/
  data : Bytes := []
  /-- It broke R288: its frames are taken and it is discarded. -/
  bad : Bool := false
  rehearsal : Bool := false
  deriving DecidableEq, Repr

/-- A conversation of a port's table (R282–R292). -/
structure Conv where
  id : Nat
  port : Nat
  kind : Nat
  conv : Nat
  peer : Nat
  part : Nat := 0
  initiator : Bool
  st : ConvSt := .closed
  epoch : Nat := 0
  /-- Partner epoch; 0 if not recorded. -/
  peerEpoch : Nat := 0
  /-- Initiator: next SEQ.  Responder: ACK. -/
  seq : Nat := 0
  credit : Nat := 0
  /-- Messages not yet acknowledged whole, oldest first; the one being sent and its next byte. -/
  outq : List OutMsg := []
  nextMsg : Nat := 0
  nextOff : Nat := 0
  nextUid : Nat := 0
  flight : List OutFrame := []
  /-- Responder: frames received above ACK. -/
  held : List Frame := []
  cur : Option InMsg := none
  /-- Messages remembered as complete: (MSG, ITEM), newest first (R282). -/
  doneMsgs : List (Nat × Nat) := []
  sentOpens : Nat := 0
  silences : Nat := 0
  /-- Frames received since the last ACK. -/
  unacked : Nat := 0
  closeReq : Bool := false
  deriving DecidableEq, Repr

/-- A message that has completed and waits for the step that takes it. -/
structure InBox where
  port : Nat
  kind : Nat
  conv : Nat
  peer : Nat
  part : Nat
  msg : Nat
  item : Nat := 0
  member : Nat := 0
  closed : Bool := false
  data : Bytes
  rehearsal : Bool := false
  deriving DecidableEq, Repr

/-- A key of a partner (R276). -/
structure RxKey where
  an : Nat
  salt : Nat
  /-- Endpoint of the salt frame. -/
  src : Nat
  active : Bool := false
  /-- Highest packet number authenticated, and those seen in the window below it (R274). -/
  top : Nat := 0
  seen : List Nat := []
  /-- Instant of the last frame authenticated. -/
  last : Nat := 0
  deriving DecidableEq, Repr

/-- A port (R269–R277). -/
structure Port where
  linkUp : Bool := false
  /-- PORT_CTRL.OPEN is in force. -/
  opened : Bool := false
  /-- Salts taken since the last reset: the AN is one less, modulo 4 (R275). -/
  salts : Nat := 0
  saltTx : Option Nat := none
  /-- The salt has been announced. -/
  announced : Bool := false
  peer : Nat := 0xFFFF
  keys : List RxKey := []
  /-- Instants of the MAC failures of the last millisecond, newest first; MAC_STORM starts anew (R277). -/
  macFails : List Nat := []
  /-- Packet number of the last frame sent under the salt (R275). -/
  pn : Nat := 0
  /-- DATA frames that a rehearsal drops next, and its entry (R403). -/
  dropNext : Nat := 0
  dropEntry : Nat := 0
  /-- None of its frames has come yet. -/
  dropFirst : Bool := false
  mixItem : Nat := 0
  mixTile : Nat := 0
  deriving DecidableEq, Repr

/-- The last epoch that this end of a conversation had (R284). -/
structure PastEpoch where
  port : Nat
  kind : Nat
  conv : Nat
  peer : Nat
  initiator : Bool
  epoch : Nat
  deriving DecidableEq, Repr

/-- Ports, conversations. -/
structure Links where
  port : SMap Port := []
  convs : List Conv := []
  /-- Messages complete and not yet taken, oldest first. -/
  inbox : List InBox := []
  nextConv : Nat := 1
  /-- Conversations whose reopening waits for a random epoch (R284). -/
  waitEpoch : List Nat := []
  /-- Epochs of conversations that are gone, the last of each. -/
  past : List PastEpoch := []
  /-- Rushes request number. -/
  rushNum : Nat := 1
  deriving DecidableEq, Repr

/-! ### Twins -/

/-- Roles (R311). -/
inductive Role where
  | none | principal | double | yielded
  deriving DecidableEq, Repr

/-- Step states (R329). -/
inductive Step' where
  | off | syncing | inStep | astray | diverged
  deriving DecidableEq, Repr

/-- A claim in its holdoff (R314): kind 1 standing, 2 commanded, and the instant the line went high. -/
structure Claim where
  kind : Nat
  since : Nat
  deriving DecidableEq, Repr

/-- An accepted or sent continuity message (R320). -/
structure ContMsg where
  tick : Nat
  flags : Nat
  epoch : Nat
  published : Nat
  handoverAt : Nat
  tj : Nat
  loadSig : Nat
  level : Nat
  digest : Bytes
  state : Bytes
  fills : Bytes
  cues : Bytes
  judged : Bool := false
  deriving DecidableEq, Repr

/-- An image of the twin's context in the own park quota (R338): 1 CHECKPOINT, 2 PARK_IMAGE. -/
structure TwinImage where
  part : Nat
  first : Nat
  gran : Nat
  kind : Nat
  ver : Nat
  deriving DecidableEq, Repr

/-- The understudy controller (R311–R342). -/
structure Twin where
  role : Role := .none
  step : Step' := .off
  sense : Bool := false
  drive : Bool := false
  fault : Bool := false
  claimPending : Bool := false
  claim : Option Claim := none
  /-- Instant the line was last sensed going high. -/
  highAt : Nat := 0
  claimBlock : Bool := false
  handover : Bool := false
  handoverAt : Nat := 0
  /-- An accepted message carried this HANDOVER_AT. -/
  handoverSeen : Nat := 0
  grave : Bool := false
  graveCode : Nat := 0
  takeEpoch : Nat := 0
  /-- RESYNC acted; the next accepted message is installed (R318, R326). -/
  resyncPend : Bool := false
  /-- TWIN_CMD bits written since the last slate, lowest acts (R318). -/
  standReq : Bool := false
  yieldReq : Bool := false
  handoverReq : Bool := false
  resyncReq : Bool := false
  cancelHoReq : Bool := false
  judged : Nat := 0
  unjudgedRun : Nat := 0
  msgs : List ContMsg := []
  /-- PUBLISHED of the last accepted message, if any. -/
  lastPublished : Option Nat := none
  /-- First tick that this module publishes since its claim (R332, R333). -/
  pubFrom : Nat := 0
  /-- S and P of an unplanned claim whose TICK_LATE records are still due (R333). -/
  cut : Option (Nat × Nat) := none
  /-- Last tick that was a valid shadow or was judged MATCH or INSTALL (R325). -/
  okTick : Option Nat := none
  /-- Own ticks up to this one count as valid shadow ticks after a handover (R332). -/
  validTo : Option Nat := none
  /-- Last tick published by this module. -/
  published : Nat := 0
  /-- The gap of an unplanned claim; below, its first slate S and first full tick F (R333, R334). -/
  gap : Bool := false
  /-- The last claim: 1 standing, 2 commanded, 3 handover (R408). -/
  claimKind : Nat := 0
  gapS : Option Nat := none
  gapF : Option Nat := none
  slow : Bool := false
  /-- Slate number at which contexts are restored (R340). -/
  restoreAt : Option Nat := none
  /-- Levels held in the gap, by output. -/
  gapLevel : Nat := 0
  /-- Divergence log latched (R331). -/
  logHeld : Bool := false
  divTick : Nat := 0
  /-- Twin table (R339): descriptor by index, and its partition. -/
  table : SMap (Option (Nat × Desc)) := []
  /-- Stored images of the twin's contexts, by index. -/
  images : SMap (Option TwinImage) := []
  /-- Completed PARK messages remembered, newest first (R338): (partition, MSG). -/
  parkDone : List (Nat × Nat) := []
  bindMap : Nat := 0
  /-- Last binding map sent and the slate it was sent at. -/
  bindSent : Option (Nat × Nat) := none
  /-- Contexts whose descriptors the next message carries (R321). -/
  ctxDue : List Nat := []
  /-- Contexts waiting for a checkpoint: (partition, index, kind). -/
  ckptQueue : List (Nat × Nat × Nat) := []
  /-- Position of each context's last checkpoint. -/
  ckptPos : SMap Nat := []
  /-- Bytes sent beyond CKPT_RATE's allowance of the slates so far (R338). -/
  ckptDebt : Nat := 0
  /-- MIX contributions kept for 16 ticks (R336). -/
  keptMix : List (Nat × Nat × Bytes) := []
  /-- Levels at the cue pins, bit o; drivers are enabled only while driving and sensing (R312). -/
  pins : Nat := 0
  /-- Notices received and not yet taken in: (kind, tick, content) (R302). -/
  notices : List (Nat × Nat × Nat) := []
  deriving DecidableEq, Repr

/-! ### Power, clocks, start-up -/

/-- The Gaffer and the always-on monitor (R363–R391). -/
structure Power where
  presentA : Bool := false
  presentB : Bool := false
  carryA : Bool := false
  carryB : Bool := false
  /-- A feed that was lost or tripped: its next carrying is a return (R363). -/
  lostA : Bool := false
  lostB : Bool := false
  ocA : Bool := false
  ocB : Bool := false
  holdup : Bool := false
  meterA : FeedMeter := {}
  meterB : FeedMeter := {}
  pinMs : Nat := 0
  level : Nat := 0
  levelWhole : Bool := false
  recs : SMap (Option Nat) := []
  episode : Bool := false
  unmet : Bool := false
  /-- The last slate was the first of a whole second, and its evaluation is due (R371). -/
  evalDue : Bool := false
  /-- Rungs in force, bit r − 1. -/
  rungs : Nat := 0
  tj : Int := 0
  /-- Tj as the always-on monitor last measured it, which no reset clears (R378). -/
  monTj : Int := 0
  sensor : Nat := 0
  inlet : Int := 0
  outlet : Int := 0
  flowSuspect : Bool := false
  pwrP : Nat := 0
  pwrE : Nat := 0
  /-- Domains powered, bit d. -/
  domainOn : Nat := 0x3FFFFFFF
  /-- Domains powered and ready for dispatch. -/
  domainReady : Nat := 0x3FFFFFFF
  ocDomain : Nat := 0
  /-- Domains to gate once their last item retires (R368). -/
  gateWait : Nat := 0
  /-- 0 running, 1 entering, 2 wrapped, 3 waking. -/
  wrap : Nat := 0
  wrapReq : Nat := 0
  wakeAfterEntry : Bool := false
  refclk : Bool := true
  arithLock : Bool := true
  fabricLock : Bool := true
  clkHoldover : Bool := false
  tripCause : Nat := 0
  tripDomain : Nat := 0
  tripTj : Int := 0
  tripped : Bool := false
  pmbusSilent : Bool := false
  /-- LOAD_SIG of the current tick (R320). -/
  loadSig : Nat := 0
  tickTj : Int := 0
  tickLevel : Nat := 0
  /-- STATUS bits: input, temperature, communication (R420). -/
  stInput : Nat := 0
  stTemp : Nat := 0
  stCml : Nat := 0
  deriving DecidableEq, Repr

/-- Straps and reset (R384–R390, R413). -/
structure Boot where
  /-- START_STAT [3:0]. -/
  stage : Nat := 0
  screenPass : Bool := false
  screenFail : Bool := false
  screenMs : Nat := 0
  screenPrime : List Nat := []
  screenDraw : List Nat := []
  screenFocus : List Nat := []
  screenOther : Nat := 0
  cause : Nat := 1
  /-- MRST_N is held low. -/
  mrstLow : Bool := false
  /-- Tick at which a warm reset was requested. -/
  warmReq : Option Nat := none
  tray : Nat := 0
  slot : Nat := 0
  strapErr : Bool := false
  /-- The strap contacts as the tray ties them, none when one is unreadable: bits [4:0] tray, [6:5] slot,
  [7] SPAR (R413). -/
  straps : Option (Fin 256) := some 0x80
  /-- Start-up after a warm reset (R390). -/
  warm : Bool := false
  deriving DecidableEq, Repr

/-! ### Rehearsal and dailies -/

/-- An injection armed on an access (R403). -/
structure Inject where
  entry : Nat
  kind : Nat
  page : Nat
  deriving DecidableEq, Repr

/-- The rehearsal block (R402–R406). -/
structure Rehearsal where
  armed : Bool := false
  /-- Firings done, by entry. -/
  fired : SMap Nat := []
  live : List Inject := []
  contHold : Bool := false
  clapSkip : Bool := false
  slateSkip : Bool := false
  stall : Bool := false
  /-- Entry of each time-triggered injection waiting to act: kind → entry. -/
  timeEntry : SMap Nat := []
  /-- Armed with entries left: the schedule has not raised SCHEDULE_DONE yet. -/
  running : Bool := false
  deriving DecidableEq, Repr

/-- A dailies record (R407). -/
structure Daily where
  tick : Nat
  kind : Nat
  part : Nat := 0
  flags : Nat := 0
  bitNo : Nat := 0
  page : Nat := 0
  info : Bytes := []
  deriving DecidableEq, Repr

/-- A partition's work in a profile interval (R408): ARITH cycles of prime cells, and of draw cells and focus pipes;
main-store granules; tokens. -/
structure Prof where
  prime : Nat := 0
  gen : Nat := 0
  mem : Nat := 0
  tokens : Nat := 0
  deriving DecidableEq, Repr

/-- Dailies (R407–R410): records newest first. -/
structure Dailies where
  recs : List Daily := []
  head : Nat := 0
  dumpSt : Nat := 0
  dumpCount : Nat := 0
  /-- Records the dump copies, oldest first. -/
  dumping : List Daily := []
  dumpAddr : Nat := 0
  /-- Slates since the last profile. -/
  profSlates : Nat := 0
  /-- Work of the profile interval so far, by partition (R408). -/
  prof : SMap Prof := []
  deriving DecidableEq, Repr

/-- What a report describes, as it stood at the end of a slate (R238, R354, R356). -/
structure Shot where
  reg : RegFile
  clap : Clapper
  reels : List Reel
  parts : SMap Part
  sec : Seal
  twin : Twin
  reh : Rehearsal
  deriving DecidableEq, Repr

/-- What the module put on its interfaces during the last command. -/
inductive Output where
  | readData (d : Bytes)
  /-- Bytes as the store holds them, with their parity bits: nine bits each (R358). -/
  | readNine (d : List Nat)
  /-- A debug access that a link which is down cuts off. -/
  | accessError
  /-- A protected frame: its protocol frame, and its bytes on the wire without the FCS (R274). -/
  | frame (port : Nat) (f : Frame) (wire : Bytes)
  | saltFrame (port : Nat) (an : Nat) (src : Nat) (salt : Nat) (wire : Bytes)
  | doe (m : DoeMsg)
  | msix (vector : Nat)
  | cxlData (d : Bytes) (poison : Bool)
  | cxlDone
  | rspIHitI
  | bisnp (granule : Nat) (write : Bool)
  | pmbus (d : Bytes)
  | pmbusNak
  | arbAddress (a : Nat)
  | saltExchange (s : Nat)
  | pin (output : Nat) (level : Bool)
  deriving DecidableEq, Repr

/-- The whole state. -/
structure State where
  /-- Commands waiting, first in, first out. -/
  pending : List Instr := []
  /-- The model's own: outputs of the last command. -/
  out : List Output := []
  /-- The model's own: index of the next free value (log entry 3). -/
  fresh : Nat := 0
  /-- The model's own: the latest instant a command named, in sixths of a nanosecond. -/
  now : Nat := 0
  reg : RegFile := {}
  acts : List SlateAct := []
  clap : Clapper := {}
  ptp : Ptp := {}
  sched : Sched := {}
  script : Script := {}
  parts : SMap Part := []
  stores : Stores := {}
  sec : Seal := {}
  units : Units := {}
  splicer : Splicer := {}
  tele : Telecine := {}
  d2d : D2d := {}
  links : Links := {}
  twin : Twin := {}
  power : Power := {}
  boot : Boot := {}
  reh : Rehearsal := {}
  dly : Dailies := {}
  /-- The last slate, as a report describes it; none before the first one of a start-up. -/
  shot : Option Shot := none
  deriving DecidableEq, Repr

/-- Right after a power-on reset begins (R384, R385, R388): stage 0 POWER, every register at the reset value
of its table, the stores empty.  Fuse contents, straps and the first image are log entries 4 and 5. -/
def State.reset : State := {}

end Sys2Proof.Machine
end

