-- ==== Sys2Proof/Machine/Ops.lean ====
section
/-! DEFINITION. The named operations over the registers, events, fault latches, vectors and free values that
every family shares (R252–R262, R243, R244, R395–R409). -/
namespace Sys2Proof.Machine

/-- The outcome of a meaning. -/
abbrev Out := Host.Outcome State Fault Refusal

/-- Continue with `k` after an operation that met no error; `f` answers an error. -/
def onErr {ε α : Type} (r : Option ε × State) (f : ε → State → α) (k : State → α) : α :=
  match r with
  | (some e, s) => f e s
  | (none, s) => k s

/-- Continue with `k` after an operation that gave a value; `f` answers an error. -/
def onExc {ε α β : Type} (r : Except ε α × State) (f : ε → State → β) (k : α → State → β) : β :=
  match r with
  | (.error e, s) => f e s
  | (.ok a, s) => k a s

/-- Continue with `k` after an operation that went well; `f` answers one that did not. -/
def onOk {α : Type} (r : Bool × State) (f k : State → α) : α :=
  match r with
  | (false, s) => f s
  | (true, s) => k s

/-- Continue with `k` after an operation that gave a value; `f` answers one that gave none. -/
def onSome {α β : Type} (r : Option α × State) (f : State → β) (k : α → State → β) : β :=
  match r with
  | (none, s) => f s
  | (some a, s) => k a s

/-! ### Page numbers (R251) -/

def pgGlobal : Nat := 0x000
def pgGaffer : Nat := 0x001
def pgClapper : Nat := 0x002
def pgSched : Nat := 0x003
def pgScript : Nat := 0x004
def pgSec0 : Nat := 0x008
def pgSec1 : Nat := 0x009
def pgTwin : Nat := 0x010
def pgCont : Nat := 0x011
def pgReh : Nat := 0x012
def pgDailies : Nat := 0x013
def pgPort (q : Nat) : Nat := if q = 8 then 0x011 else 0x018 + q
def pgMag (m : Nat) : Nat := 0x020 + m
def pgPark : Nat := 0x028
def pgSplicer : Nat := 0x02C
def pgChan (c : Nat) : Nat := 0x030 + c
def pgTele : Nat := 0x050
def pgTctx (c : Nat) : Nat := 0x051 + c
def pgFraming : Nat := 0x0A0
def pgCutter : Nat := 0x0A8
def pgFocus (f : Nat) : Nat := 0x0B0 + f
def pgPrime (c : Nat) : Nat := 0x100 + c
def pgDraw (d : Nat) : Nat := 0x1E0 + d
def pgPart (p : Nat) : Nat := 0x200 + p
def pgD2d : Nat := 0x300

/-- Every implemented page (R251). -/
def allPages : List Nat := (List.range 0x301).filter implemented

/-! ### Time -/

/-- Sixths of a nanosecond in one nanosecond, one microsecond and one second (log entry 2). -/
def tNs : Nat := 6
def tUs : Nat := 6000
def tSec : Nat := 6000000000

/-- A command names an instant: the model's clock moves to it and never back. -/
def State.at (s : State) (t : Nat) : State := { s with now := max s.now t }

/-- The 1588 clock at an instant, in ns (R34, R272). -/
def State.clock1588 (s : State) (t : Nat) : Nat := s.ptp.base + (t - s.ptp.mark) / tNs

/-! ### Fields of the state -/

/-- Start of a command: its outputs are the ones of this command only. -/
def State.begin (s : State) : State := { s with out := [] }

/-- Put something on an interface. -/
def State.emit (s : State) (o : Output) : State := { s with out := s.out ++ [o] }

/-- Index of a free value, and the state that has used it. -/
def State.draw (s : State) : Nat × State := (s.fresh, { s with fresh := s.fresh + 1 })

def State.hdr (s : State) (pg : Nat) : Hdr := mget hdrReset s.reg.hdr pg

def State.modHdr (s : State) (pg : Nat) (f : Hdr → Hdr) : State :=
  { s with reg := { s.reg with hdr := mmod hdrReset s.reg.hdr pg f } }

/-- A block-specific register's current value. -/
def State.rd (s : State) (pg off : Nat) : Word := mget regReset s.reg.cur (rk pg off)

/-- The same, as a number. -/
def State.rdn (s : State) (pg off : Nat) : Nat := (s.rd pg off).toNat

def State.wr (s : State) (pg off : Nat) (v : Word) : State :=
  { s with reg := { s.reg with cur := mset regReset s.reg.cur (rk pg off) v } }

/-- A register's value in force (registers whose writes take effect at a slate). -/
def State.fo (s : State) (pg off : Nat) : Word := mget regReset s.reg.force (rk pg off)

def State.fon (s : State) (pg off : Nat) : Nat := (s.fo pg off).toNat

def State.wrForce (s : State) (pg off : Nat) (v : Word) : State :=
  { s with reg := { s.reg with force := mset regReset s.reg.force (rk pg off) v } }

/-- Two registers as one 64-bit number. -/
def State.rd64 (s : State) (pg off : Nat) : Nat := s.rdn pg off + 2 ^ 32 * s.rdn pg (off + 4)

/-- Count into a register; counters saturate (log entry 6). -/
def State.count (s : State) (pg off n : Nat) : State := s.wr pg off (satAdd (s.rd pg off) n)

/-- Keep the larger value in a register. -/
def State.countMax (s : State) (pg off n : Nat) : State :=
  s.wr pg off (word (max (s.rdn pg off) (min n 0xFFFFFFFF)))

/-- Count partition 0's work in the unit's page and a tenant's in its totals (R110, R139, R166, R201, R221, R266). -/
def State.countFor (s : State) (p pg off tot n : Nat) : State :=
  if p = 0 then s.count pg off n else s.count (pgPart p) tot n

/-- Count cycles whose number the spec leaves to the implementation: a free number of them (log 3). -/
def State.countFree (s : State) (p pg off tot : Nat) : State :=
  ({ s with fresh := s.fresh + 1 } : State).countFor p pg off tot (Config.freeNat s.fresh)

/-- As countFor, for a largest value (R266). -/
def State.countMaxFor (s : State) (p pg off tot n : Nat) : State :=
  if p = 0 then s.countMax pg off n else s.countMax (pgPart p) tot n

def State.part (s : State) (p : Nat) : Part := mget (fun _ => {}) s.parts p

def State.modPart (s : State) (p : Nat) (f : Part → Part) : State :=
  { s with parts := mmod (fun _ => {}) s.parts p f }

/-- Controllers after a power-on: nothing trained (R171). -/
def State.ctl (s : State) (m : Nat) : Ctl := mget (fun _ => {}) s.stores.ctl m

def State.modCtl (s : State) (m : Nat) (f : Ctl → Ctl) : State :=
  { s with stores := { s.stores with ctl := mmod (fun _ => {}) s.stores.ctl m f } }

def State.unit (s : State) (pg : Nat) : Unit' := mget (fun _ => {}) s.units.unit pg

def State.modUnit (s : State) (pg : Nat) (f : Unit' → Unit') : State :=
  { s with units := { s.units with unit := mmod (fun _ => {}) s.units.unit pg f } }

def State.chan (s : State) (c : Nat) : Channel := mget (fun _ => {}) s.splicer.chan c

def State.modChan (s : State) (c : Nat) (f : Channel → Channel) : State :=
  { s with splicer := { s.splicer with chan := mmod (fun _ => {}) s.splicer.chan c f } }

def State.tctx (s : State) (c : Nat) : TeleCtx := mget (fun _ => {}) s.tele.ctx c

def State.modTctx (s : State) (c : Nat) (f : TeleCtx → TeleCtx) : State :=
  { s with tele := { s.tele with ctx := mmod (fun _ => {}) s.tele.ctx c f } }

def State.port (s : State) (q : Nat) : Port := mget (fun _ => {}) s.links.port q

def State.modPort (s : State) (q : Nat) (f : Port → Port) : State :=
  { s with links := { s.links with port := mmod (fun _ => {}) s.links.port q f } }

def State.desc (s : State) (i : Nat) : Desc := mget (fun _ => {}) s.script.ctxs i

def State.modDesc (s : State) (i : Nat) (f : Desc → Desc) : State :=
  { s with script := { s.script with ctxs := mmod (fun _ => {}) s.script.ctxs i f } }

/-! ### Slates or none (R249) -/

/-- Does the Clapper issue slates? -/
def State.slatesOn (s : State) : Bool :=
  s.clap.run && s.boot.stage == 7 && decide (s.power.wrap < 2) && !s.power.tripped

/-- Is the page's domain powered (R367)? -/
def State.pageOn (s : State) (pg : Nat) : Bool := s.power.domainOn.testBit (pageDomain pg)

/-- Is the die-to-die link carrying flits (R226, R237)? -/
def State.linkLive (s : State) : Bool := s.d2d.up && s.d2d.ide == 1

/-- Is there a way to BAR0: the die-to-die link, the only path from the director die (R18), or an open console, which acts as a
BAR0 operator (R358)? -/
def State.regPath (s : State) : Bool := s.linkLive || s.sec.consoleOpen

/-- A page that no access reaches: there is no way to it, or its domain is off in Wrap, in a wake or in a trip (R18, R378, R380). -/
def State.unreach (s : State) (pg : Nat) : Bool :=
  !s.regPath || ((decide (2 ≤ s.power.wrap) || s.power.tripped) && !s.pageOn pg)

/-! ### Owners -/

/-- The loaded class A reel (R27, R38). -/
def State.classA (s : State) : Option Reel := s.sched.reels.find? fun r => r.cls = 1

/-- BLK_OWNER of the FRAMING page (R111). -/
def State.framingOwner (s : State) : Nat := match s.classA with | some r => r.p | none => 0

/-- BLK_OWNER (R261). -/
def State.ownerOf (s : State) (pg : Nat) : Nat :=
  match pageKind pg with
  | .partition => pg - 0x200
  | .framing => s.framingOwner
  | .prime | .draw | .focus => (s.hdr pg).owner
  | .channel => (s.chan (pg - 0x30)).part
  | .tcctx => (s.tctx (pg - 0x51)).part
  | _ => 0

/-! ### Vectors (R243) -/

/-- A request placed at a slate acts after the slate that follows it, or at once without slates (R249). -/
def State.slatePassed (s : State) (tick : Nat) : Bool := !s.slatesOn || decide (tick < s.clap.num)

/-- An UNBIND of p has come to its slate: its window is closed and its vectors are held (R240). -/
def State.closing (s : State) (p : Nat) : Bool :=
  match (s.part p).unbindReq with
  | some t => s.slatePassed t
  | none => false

/-- May vector v's message go out: unmasked, the link up, and p ≥ 1 bound (R240, R244)? -/
def State.vecFree (s : State) (v : Nat) : Bool :=
  !bit (mget msixReset s.d2d.msix (4 * v + 3)) 0 && s.linkLive && (v < 4 || ((s.part (v / 4)).bound && !s.closing (v / 4)))

/-- Send vector v's message and clear its latch. -/
def State.sendVec (s : State) (v : Nat) : State :=
  let l := s.d2d.latch
  let s := { s with d2d := { s.d2d with latch := if l.testBit v then l - 2 ^ v else l } }
  (s.count pgD2d 0x84 1).emit (.msix v)

def State.latchVec (s : State) (v : Nat) : State :=
  let s := { s with d2d := { s.d2d with latch := s.d2d.latch ||| (1 <<< v) } }
  -- without slates a message follows its cause, but waits in Wrap (R249, R380)
  if !s.slatesOn && decide (s.power.wrap < 2) && s.vecFree v then s.sendVec v else s

/-- One message for each latched vector that may send; the others are held (R244). -/
def State.sendVecs (s : State) : State :=
  (List.range 64).foldl (fun s v =>
    if s.d2d.latch.testBit v then (if s.vecFree v then s.sendVec v else s.count pgD2d 0x88 1) else s) s

/-- Latched vectors that a change has freed go out at once when no slates are issued (R249). -/
def State.sendFreed (s : State) : State :=
  if s.slatesOn || decide (2 ≤ s.power.wrap) then s
  else (List.range 64).foldl (fun s v => if s.d2d.latch.testBit v && s.vecFree v then s.sendVec v else s) s

/-! ### Dailies (R407–R409) -/

def dlyCap : Nat := 2097152

/-- Write a record, when RUN and the kind's bit are in force and the buffer takes it. -/
def State.note (s : State) (d : Daily) : State :=
  let c := s.fo pgDailies 0x40
  if bit c 0 && bit c (8 + (d.kind - 1)) then
    if dlyCap ≤ s.dly.recs.length then
      let s := s.count pgDailies 0x50 1
      if bit c 1 then s
      else { s with dly := { s.dly with recs := d :: s.dly.recs.take (dlyCap - 1), head := s.dly.head + 1 } }
    else
      let s := { s with dly := { s.dly with recs := d :: s.dly.recs, head := s.dly.head + 1 } }
      if s.dly.recs.length = dlyCap then
        -- DLY_FULL: the full buffer takes no record of it (log entry 29)
        let s := s.modHdr pgDailies fun h => { h with evt := setBit h.evt 8 true, synth := false }
        if bit (s.hdr pgDailies).evtEn 8 then s.latchVec 2 else s
      else s
  else s

/-- Work of a partition in the profile interval (R408). -/
def State.profile (s : State) (p : Nat) (f : Prof → Prof) : State :=
  { s with dly := { s.dly with prof := mmod (fun _ => {}) s.dly.prof p f } }

/-! ### Events -/

/-- Is a page's interrupt cause set (R256)? -/
def Hdr.cause (h : Hdr) : Bool := (h.evt &&& h.evtEn) ≠ 0

/-- The EVENT record of an event (R408, R409). -/
def State.eventRec (s : State) (pg b : Nat) (reh latched : Bool) : Daily :=
  let h := s.hdr pg
  let owner := s.ownerOf pg
  let tenant := owner ≠ 0
  { tick := s.clap.num, kind := 1, part := owner, flags := b2n reh, bitNo := b,
    page := if tenant then kindType (pageKind pg) else pg,
    info := if tenant then []
            else leBytes 4 h.finfo.toNat ++ leBytes 8 (if latched then h.faddr else 0) }

/-- Raise event `b` of a page: BLK_EVT, SYNTH, the vectors and the EVENT record (R252, R256, R243, R408). -/
def State.raiseWith (s : State) (pg b : Nat) (reh latched : Bool) : State :=
  let s := s.modHdr pg fun h => { h with evt := setBit h.evt b true, synth := false }
  let s := s.note (s.eventRec pg b reh latched)
  let s := if bit (s.hdr pg).evtEn b then s.latchVec 2 else s
  if pageKind pg = .partition && 8 ≤ b then s.latchVec (4 * (pg - 0x200) + 3) else s

def State.raise (s : State) (pg b : Nat) : State := s.raiseWith pg b false false

def State.raiseIf (s : State) (c : Bool) (pg b : Nat) : State := if c then s.raise pg b else s

/-- Common events (R252). -/
def evReserved : Nat := 0
def evLocked : Nat := 1
def evRefused : Nat := 2
def evParity : Nat := 3
def evLatched : Nat := 4
def evMore : Nat := 5
def evResetDone : Nat := 6
def evRehearsal : Nat := 7

/-- A write that a condition drops. -/
def State.refuse (s : State) (pg : Nat) : State := s.raise pg evRefused

/-- A fault with event `b`: the latch captures it, or FAULT_MORE is raised (R255). -/
def State.fault (s : State) (pg b addr : Nat) (info : Word) (reh : Bool := false) : State :=
  let h := s.hdr pg
  let s := if reh then s.raiseWith pg evRehearsal true false else s
  if bit h.evt evLatched then (s.raiseWith pg b reh false).raiseWith pg evMore reh false
  else
    let s := s.modHdr pg fun h => { h with faddr := addr, finfo := info, tenantFault := decide (s.ownerOf pg ≠ 0) }
    (s.raiseWith pg b reh true).raiseWith pg evLatched reh true

/-- A parity error detected by a block: BLK_PERR and PARITY, then the fault (R252, R255). -/
def State.parityFault (s : State) (pg b addr : Nat) (info : Word) (reh : Bool := false) : State :=
  let s := s.modHdr pg fun h => { h with perr := satAdd h.perr 1 }
  (s.raiseWith pg evParity reh false).fault pg b addr info reh

/-! ### Grave diagnoses (R398, R317) -/

def graveNo : GraveKind → Nat
  | .stateBreak => 1 | .lateRun => 2 | .storeLink => 3 | .domainLost => 4 | .clock => 5 | .rehearsed => 0xFF

def roleNo : Role → Nat
  | .none => 0 | .principal => 1 | .double => 2 | .yielded => 3

def stepNo : Step' → Nat
  | .off => 0 | .syncing => 1 | .inStep => 2 | .astray => 3 | .diverged => 4

/-- Standing orders in force (R397). -/
def State.yieldOnGrave (s : State) : Bool := bit (s.fo pgTwin 0x48) 0
def State.allowClaim (s : State) : Bool := bit (s.fo pgTwin 0x48) 1
def State.shedUnderCap (s : State) : Bool := bit (s.fo pgGaffer 0x40) 0

/-- Cue drivers are enabled only while the module drives TAKE and senses it low (R312). -/
def State.cueEn (s : State) : Bool := s.twin.drive && s.twin.sense

/-- A module stops driving TAKE (R315). -/
def State.releaseTake (s : State) : State :=
  if s.twin.drive then
    let s := { s with twin := { s.twin with drive := false, fault := false } }
    s.raise pgTwin 9
  else s

/-- Leave the role DOUBLE or PRINCIPAL: a step state is kept by a DOUBLE only (R329), and a pending or
running claim by NONE and DOUBLE only (R318). -/
def State.setRole (s : State) (r : Role) : State :=
  let t := { s.twin with role := r, step := if r = .double then s.twin.step else .off }
  let t := if r = .none || r = .double then t else { t with claimPending := false, claim := none }
  { s with twin := t }

/-- A grave diagnosis (R398, R317): the first latches its code; an armed principal yields. -/
def State.graveDiag (s : State) (k : GraveKind) (reh : Bool := false) : State :=
  let needsRole := k = .stateBreak || k = .lateRun
  if needsRole && !(s.twin.role = .principal || s.twin.role = .none) then s
  else
    let role := roleNo s.twin.role
    let first := !s.twin.grave
    let yields := first && s.twin.role = .principal && s.yieldOnGrave
    let s := s.note { tick := s.clap.num, kind := 6, flags := b2n reh,
                      info := leBytes 2 (graveNo k) ++ leBytes 1 role ++ leBytes 1 (b2n yields) ++ leBytes 12 0 }
    let s := if first then
        ({ s with twin := { s.twin with grave := true, graveCode := graveNo k } } : State).fault pgTwin 12 s.clap.num 3 reh
      else s
    if yields then (s.releaseTake.setRole .yielded).raiseWith pgTwin 13 reh false else s

/-! ### Slate-effect registers -/

/-- Put a register's current value in force. -/
def State.takeForce (s : State) (key : Nat) : State :=
  { s with reg := { s.reg with force := mset regReset s.reg.force key (mget regReset s.reg.cur key) } }

/-- Store a register whose effect is at the next slate, or at once without slates (R249). -/
def State.wrSlate (s : State) (pg off : Nat) (v : Word) : State :=
  let s := s.wr pg off v
  if s.slatesOn then { s with reg := { s.reg with due := s.reg.due ++ [rk pg off] } }
  else s.takeForce (rk pg off)

/-- At a slate every due register takes force. -/
def State.forceDue (s : State) : State :=
  let d := s.reg.due
  d.foldl State.takeForce { s with reg := { s.reg with due := [] } }

/-! ### Clapper figures -/

def State.periodUs (s : State) : Nat := s.fon pgClapper 0x44
def State.pCyc (s : State) : Nat := s.periodUs * 400
def State.src (s : State) : Nat := let v := field (s.fo pgClapper 0x40) 1 2; if v = 3 then 0 else v
def State.lead (s : State) : Bool := bit (s.fo pgClapper 0x40) 4

/-- MISS_LIMIT; 0 acts as 1. -/
def State.missLimit (s : State) : Nat := max 1 (s.fon pgClapper 0x4C)

/-! ### Reels -/

def State.classALoaded (s : State) : Bool := s.classA.isSome

/-- Reels loaded in partition p. -/
def State.reelsOf (s : State) (p : Nat) : List Reel := s.sched.reels.filter fun r => r.p = p

def State.findReel (s : State) (p h : Nat) : Option Reel :=
  s.sched.reels.find? fun r => r.p = p && r.handle = h

def State.modReel (s : State) (p h : Nat) (f : Reel → Reel) : State :=
  { s with sched := { s.sched with
      reels := s.sched.reels.map fun r => if r.p = p && r.handle = h then f r else r } }

/-- Class A shares in force: MEM_RD and MEM_WR of the class A reel's header (MEM_A_RD, MEM_A_WR). -/
def State.memARd (s : State) : Nat := match s.classA with | some r => leAt r.image 0x18 4 | none => 0
def State.memAWr (s : State) : Nat := match s.classA with | some r => leAt r.image 0x1C 4 | none => 0

/-- Modules of the cascade group (R26). -/
def State.groupSize (s : State) : Nat := field (s.fo pgGlobal 0x48) 0 7

/-- MODULE_ID. -/
def State.moduleId (s : State) : Nat := field (s.rd pgGlobal 0x40) 0 14

/-- PARTNER_ID and PAIRED of TWIN_CFG. -/
def State.partnerId (s : State) : Nat := field (s.rd pgTwin 0x40) 0 14
def State.paired (s : State) : Bool := bit (s.rd pgTwin 0x40) 16

/-- A class A unit holder check for ENABLE = 0 (R253): does a loaded class A reel hold the page's block? -/
def State.heldByA (s : State) (pg : Nat) : Bool :=
  match s.classA with
  | none => false
  | some r =>
    match pageKind pg with
    | .prime => r.cells.contains (pg - 0x100)
    | .framing => leAt r.image 0x20 4 ≠ 0
    | .telecine => !r.teleCtx.isEmpty
    | .tcctx => r.teleCtx.contains (pg - 0x51)
    | .splicer => !r.channels.isEmpty
    | .channel => r.channels.contains (pg - 0x30)
    | _ => false

/-! ### Ports -/

/-- A port takes a fresh transmit salt, when the generator answers (R275). -/
def State.takeSalt (s : State) (q : Nat) : State :=
  if !s.sec.rngOk then s.modPort q fun t => { t with saltTx := none }
  else
    let (n, s) := s.draw
    s.modPort q fun t => { t with saltTx := some (Config.randomBits n % 2 ^ 128), salts := t.salts + 1, announced := false, pn := 0 }

/-- A port opens: it is keyed anew (R275); a module with a strap error opens no continuity port (R413). -/
def State.openPort (s : State) (q : Nat) : State :=
  if (s.port q).opened || (q = 8 && s.boot.strapErr) then s
  else (s.modPort q fun t => { t with opened := true }).takeSalt q

/-- Ports whose OPEN is in force open after a wake or a start-up. -/
def State.reopenPorts (s : State) : State :=
  (List.range 9).foldl (fun s q => if bit (s.fo (pgPort q) 0x40) 0 then s.openPort q else s) s

/-! ### Ends of conversations (R284) -/

/-- Is `e` the record of the conversation with c's identity at this end? -/
def PastEpoch.isOf (e : PastEpoch) (q kind conv peer : Nat) (ini : Bool) : Bool :=
  e.port = q && e.kind = kind && e.conv = conv && e.peer = peer && e.initiator == ini

/-- Keep c's epoch, so that the next one of its conversation differs (R284). -/
def keepEpoch (l : List PastEpoch) (c : Conv) : List PastEpoch :=
  { port := c.port, kind := c.kind, conv := c.conv, peer := c.peer, initiator := c.initiator, epoch := c.epoch }
    :: l.filter fun e => !e.isOf c.port c.kind c.conv c.peer c.initiator

/-- The conversations that satisfy f end at this end. -/
def State.dropConvs (s : State) (f : Conv → Bool) : State :=
  { s with links := { s.links with
      past := (s.links.convs.filter f).foldl keepEpoch s.links.past
      convs := s.links.convs.filter fun c => !f c } }

end Sys2Proof.Machine
end

