-- ==== Sys2Proof/Machine/Store.lean ====
section
/-! DEFINITION. The main store, the park tier and the rings: address map (R172, R173, R177), ownership and
faults of an access (R171, R174, R176, R178, R179), and result and tick records (R46, R47). -/
namespace Sys2Proof.Machine

/-! ### Address map -/

/-- What an unlisted byte reads as: zero (log entry 7). -/
def memDefault (_ : Nat) : Byte := 0

/-- Canonical form of a memory: addresses strictly rising, no entry that reads as an unlisted byte. -/
abbrev Memory.wf (m : List Host.Cell) : Bool := mwf memDefault m

def mainSize : Nat := 0x3000000000
def parkSize : Nat := 2 ^ 39
/-- First byte of the partition chunks (R173). -/
def chunkBase : Nat := 0x40000000
def chunk : Nat := 2 ^ 30

/-- Partition p's main-store range: first byte and size (R173). -/
def State.msBase (s : State) (p : Nat) : Nat := chunkBase + field (s.rd (pgPart p) 0x48) 0 8 * chunk
def State.msChunks (s : State) (p : Nat) : Nat := field (s.rd (pgPart p) 0x48) 16 8
def State.msSize (s : State) (p : Nat) : Nat := s.msChunks p * chunk
def State.pkBase (s : State) (p : Nat) : Nat := field (s.rd (pgPart p) 0x4C) 0 9 * chunk
def State.pkSize (s : State) (p : Nat) : Nat := field (s.rd (pgPart p) 0x4C) 16 10 * chunk
def State.ctxFirst (s : State) (p : Nat) : Nat := s.rdn (pgPart p) 0x54
def State.ctxCount (s : State) (p : Nat) : Nat := s.rdn (pgPart p) 0x58

/-- Is [a, a+n) inside partition p's main-store space? -/
def State.inSpace (s : State) (p a n : Nat) : Bool := decide (a + n ≤ s.msSize p)

/-- Owner of a main-store address (R173): a partition, or none. -/
def State.ownerMain (s : State) (pa : Nat) : Option Nat :=
  (List.range 16).find? fun p =>
    (decide (s.msBase p ≤ pa) && decide (pa < s.msBase p + s.msSize p)) ||
    (decide (pa < 0x10000000) && decide (s.ctxFirst p * 256 ≤ pa) && decide (pa < (s.ctxFirst p + s.ctxCount p) * 256))

/-- Owner of a park address (R173). -/
def State.ownerPark (s : State) (ppa : Nat) : Option Nat :=
  (List.range 16).find? fun p => decide (s.pkBase p ≤ ppa) && decide (ppa < s.pkBase p + s.pkSize p)

/-- Under scrub, or held after a failed scrub (R181). -/
def Part.heldForScrub (q : Part) : Bool := q.scrubbing || q.scrubFailed

/-! ### Accesses -/

/-- Who asks (BLK_FINFO [26:16] of the MAG page), and whether the traffic is class A (R51). -/
structure Requester where
  p : Nat
  unit : Nat := 0
  clsA : Bool := false
  deriving DecidableEq, Repr

/-- UNIT code of the requester behind a unit's register page: the code of R36 with the physical unit's number
(log entry 89). -/
def unitCode (pg : Nat) : Nat :=
  if 0x100 ≤ pg && pg < 0x1E0 then pg - 0x100
  else if 0x1E0 ≤ pg && pg < 0x200 then 0x100 + (pg - 0x1E0)
  else if 0xB0 ≤ pg && pg < 0xC0 then 0x200 + (pg - 0xB0)
  else if pg = pgCutter then 0x300
  else if pg = pgFraming then 0x301
  else if 0x51 ≤ pg && pg < 0x91 then 0x400 + (pg - 0x51)
  else 0x500 + (pg - 0x30) % 32

/-- How an access can fail, with the physical address of the granule it failed at. -/
inductive StoreErr where
  | refused (pa : Nat)
  | linkDown (pa : Nat)
  | parity (pa : Nat)
  | rmw (pa : Nat)
  | addrErr (pa : Nat)
  deriving DecidableEq, Repr

def StoreErr.pa : StoreErr → Nat
  | .refused a => a | .linkDown a => a | .parity a => a | .rmw a => a | .addrErr a => a

/-- A parity error, against a bus error. -/
def StoreErr.isParity : StoreErr → Bool
  | .parity _ => true
  | _ => false

/-- An access that R174 refuses. -/
def StoreErr.isRefused : StoreErr → Bool
  | .refused _ => true
  | _ => false

/-- The failing access's partition-space address. -/
def State.failAt (s : State) (p : Nat) (e : StoreErr) : Nat := e.pa - s.msBase p

/-- BLK_FINFO of a MAG page (kind, link, owner, unit). -/
def magInfo (kind link owner unit : Nat) : Word := word (kind + link % 4 * 8 + owner * 0x100 + unit * 0x10000)

/-- Class A granules in this tick: beyond its share the traffic is served with class C (R51). -/
def State.chargeA (s : State) (wr : Bool) (n : Nat) : State :=
  let s := if wr then { s with sched := { s.sched with usedWr := s.sched.usedWr + n } }
           else { s with sched := { s.sched with usedRd := s.sched.usedRd + n } }
  let past := s.memARd < s.sched.usedRd || s.memAWr < s.sched.usedWr
  if past && !s.sched.shareExc then
    (({ s with sched := { s.sched with shareExc := true } } : State).count pgSched 0xC0 1).raise pgSched 10
  else s

def State.badMainAt (s : State) (g : Nat) : Nat := mget (fun _ => 0) s.stores.badMain g
def State.badParkAt (s : State) (g : Nat) : Nat := mget (fun _ => 0) s.stores.badPark g

def State.setBadMain (s : State) (g v : Nat) : State :=
  { s with stores := { s.stores with badMain := mset (fun _ => 0) s.stores.badMain g v } }
def State.setBadPark (s : State) (g v : Nat) : State :=
  { s with stores := { s.stores with badPark := mset (fun _ => 0) s.stores.badPark g v } }

/-- Every byte of a granule fails: poison (R176). -/
def poison : Nat := 2 ^ 64 - 1

/-! ### Keys and stored bytes (R175, R345) -/

/-- Identity of the key pair of partition p, tenancy value t, power session n; partition 16 is the module. -/
def keyId (p t n : Nat) : Nat := 2 + p + 17 * (t + 65536 * n)
def noKey : Nat := 1

def State.keyOf (s : State) (p : Nat) : Nat := keyId p (s.part p).t s.sec.bootNonce
def State.moduleKey (s : State) : Nat := keyId 16 0 s.sec.bootNonce

/-- The module area (R173). -/
def moduleArea (pa : Nat) : Bool := decide (0x10000000 ≤ pa) && decide (pa < chunkBase)

/-- Key under which the stage serves a granule now. -/
def State.keyMainAt (s : State) (pa : Nat) : Nat :=
  if moduleArea pa then s.moduleKey else match s.ownerMain pa with | some p => s.keyOf p | none => noKey
def State.keyParkAt (s : State) (ppa : Nat) : Nat := match s.ownerPark ppa with | some p => s.keyOf p | none => noKey

/-- The key pair's 64 bytes. -/
def pairOf (id : Nat) : Bytes :=
  let j := id - 2
  memKeyPair (if j % 17 = 16 then 0xFF else j % 17) (j / 17 % 65536) (leBytes 32 (Config.randomBits (j / (17 * 65536))))

def encGran (id : Nat) (park : Bool) (g : Nat) (b : Bytes) : Bytes := if id ≤ noKey then b else xtsEnc (pairOf id) park g b
def decGran (id : Nat) (park : Bool) (g : Nat) (b : Bytes) : Bytes := if id ≤ noKey then b else xtsDec (pairOf id) park g b

/-- What a scrub left on a link at an address; 0 where none has been. -/
def State.zeroKey (s : State) (link a : Nat) : Nat :=
  match s.stores.zeroed.find? fun z => z.link = link && decide (z.lo ≤ a) && decide (a < z.hi) with
  | some z => z.key
  | none => 0

/-- Key under which a granule lies in the store; 0 for what has never been written. -/
def State.mainTagAt (s : State) (g : Nat) : Nat :=
  let t := mget (fun _ => 0) s.stores.mainTag g
  if t = 0 then s.zeroKey (linkOf (g * 64)) (g * 64) else t
def State.parkTagAt (s : State) (g : Nat) : Nat :=
  let t := mget (fun _ => 0) s.stores.parkTag g
  if t = 0 then s.zeroKey (32 + ifOf (g * 64)) (g * 64) else t

/-- A granule is written under a key. -/
def State.setMainTag (s : State) (g k : Nat) : State :=
  let z := s.zeroKey (linkOf (g * 64)) (g * 64)
  { s with stores := { s.stores with mainTag := if z = k then mdel s.stores.mainTag g else mins s.stores.mainTag g k } }
def State.setParkTag (s : State) (g k : Nat) : State :=
  let z := s.zeroKey (32 + ifOf (g * 64)) (g * 64)
  { s with stores := { s.stores with parkTag := if z = k then mdel s.stores.parkTag g else mins s.stores.parkTag g k } }

/-- Bytes of the stores in plaintext, under the key they were written with. -/
def State.rawMain (s : State) (pa n : Nat) : Bytes := mgetMany memDefault s.stores.main pa n
def State.rawPark (s : State) (ppa n : Nat) : Bytes := mgetMany memDefault s.stores.park ppa n

/-- A granule as the store holds it: ciphertext, but what nothing has written is taken under the present key. -/
def State.storedMain (s : State) (g : Nat) : Bytes :=
  let t := s.mainTagAt g
  encGran (if t = 0 then s.keyMainAt (g * 64) else t) false g (s.rawMain (g * 64) 64)
def State.storedPark (s : State) (g : Nat) : Bytes :=
  let t := s.parkTagAt g
  encGran (if t = 0 then s.keyParkAt (g * 64) else t) true g (s.rawPark (g * 64) 64)

/-- A granule's plaintext through the stage: under its present key, which need not be the key it was written with. -/
def State.plainMain (s : State) (g : Nat) : Bytes :=
  let t := s.mainTagAt g
  let k := s.keyMainAt (g * 64)
  if t = 0 || t = k then s.rawMain (g * 64) 64 else decGran k false g (s.storedMain g)
def State.plainPark (s : State) (g : Nat) : Bytes :=
  let t := s.parkTagAt g
  let k := s.keyParkAt (g * 64)
  if t = 0 || t = k then s.rawPark (g * 64) 64 else decGran k true g (s.storedPark g)

/-- An armed MAG injection inverts the parity of byte 0 of the next granule delivered (R403, R405, R406). -/
def State.takeInject (s : State) (pg : Nat) : Option Inject × State :=
  match s.reh.live.find? fun i => i.page = pg with
  | none => (none, s)
  | some i =>
    (some i, { s with reh := { s.reh with live := s.reh.live.filter fun j => !(j = i) } })

/-- The outcome of an injection: counted, raised and recorded (R402, R405, R406, R408).  1 ACTED, 2 MISSED, 3 REAL. -/
def State.injectOutcome (s : State) (e kind outcome : Nat) : State :=
  let s := s.note { tick := s.clap.num, kind := 5, flags := 1,
                    info := leBytes 1 e ++ leBytes 1 kind ++ leBytes 1 outcome ++ leBytes 1 0
                            ++ leBytes 4 (s.rdn pgReh (0x104 + 0x10 * e)) ++ leBytes 8 0 }
  if outcome = 1 then (s.count pgReh 0x48 1).raise pgReh 8
  else if outcome = 2 then (s.count pgReh 0x4C 1).raise pgReh 9
  else (s.count pgReh 0x50 1).raise pgReh 10

/-- A granule that the snoop filter lists is snooped before a unit's access: BISnpData for a read, after which the host may go on
holding the line, BISnpInv for a write, after which it does not (R232).  A link that carries no flits carries no snoop (R226, R237). -/
def State.snoopFor (s : State) (q : Requester) (g : Nat) (wr : Bool) : State :=
  if q.unit = 0x7FF || !s.linkLive || !s.d2d.snoop.contains g then s
  else
    let kept := if wr then s.d2d.snoop.filter fun x => !(x = g) else s.d2d.snoop
    let s := { s with d2d := { s.d2d with snoop := kept, bisnp := s.d2d.bisnp ++ [(g, wr)] } }
    (s.count 0x300 0x80 1).emit (.bisnp g wr)

/-- The access that a magazine reported has failed (R170). -/
def State.dropReport (s : State) (g : Nat) : State :=
  { s with stores := { s.stores with reported := s.stores.reported.filter fun x => !(x = g) } }

/-- A controller serves a read: LAT_MAX and REFRESH_HIT hold the number of reads since they were cleared, and what they show is
taken of those reads' free times (R169, R185; log entry 3). -/
def State.timeRead (s : State) (pg : Nat) : State :=
  let s := { s with reg := { s.reg with served := mmod (fun _ => 0) s.reg.served pg (· + 1) } }
  (s.count pg 0x60 1).count pg 0x64 1

/-- The stage and its controller read a granule for a requester that may have it (R169, R176, R179). -/
def State.serveRead (s : State) (q : Requester) (g : Nat) : Option StoreErr × State :=
  let pa := g * 64
  let l := linkOf pa
  let pg := pgMag (l / 4)
  let s := (s.count pg 0x48 1).profile q.p fun f => { f with mem := f.mem + 1 }
  let s := s.timeRead pg
  let s := if q.clsA then s.chargeA false 1 else s
  let bad := s.badMainAt g
  if bad = 0 then
    match s.takeInject pg with
    | (none, s) => (none, s)
    | (some i, s) =>
      let s := (s.count pg 0x50 1).parityFault pg 8 pa (magInfo 1 l q.p q.unit) true
      (some (.parity pa), s.injectOutcome i.entry i.kind 1)
  else
    let s := match s.takeInject pg with
      | (none, s) => s
      | (some i, s) => s.injectOutcome i.entry i.kind 3
    if bad = poison then
      (some (.parity pa), (s.count pg 0x54 1).parityFault pg 9 pa (magInfo 2 l q.p q.unit))
    else (some (.parity pa), (s.count pg 0x50 1).parityFault pg 8 pa (magInfo 1 l q.p q.unit))

/-- Read one main-store granule through its controller (R170, R171, R174). -/
def State.readGran (s : State) (q : Requester) (g : Nat) : Option StoreErr × State :=
  let s := s.snoopFor q g false
  let pa := g * 64
  let l := linkOf pa
  let owner := s.ownerMain pa
  if owner ≠ some q.p || (s.part q.p).heldForScrub then
    (some (.refused pa), s.fault (pgMag (l / 4)) 15 pa (magInfo 7 l (owner.getD 0) q.unit))
  else if !(s.ctl (l / 4)).up.testBit (l % 4) then (some (.linkDown pa), s)
  else if s.stores.reported.contains g then (some (.addrErr pa), s.dropReport g)
  else s.serveRead q g

/-- Read granules g, g + 1, … while they succeed. -/
def State.readGrans (s : State) (q : Requester) (g n : Nat) : Option StoreErr × State :=
  match n with
  | 0 => (none, s)
  | n + 1 =>
    onErr (s.readGran q g) (fun e s => (some e, s)) fun s => s.readGrans q (g + 1) n

/-- Granules that [a, a+n) touches. -/
def granCount (a n : Nat) : Nat := if n = 0 then 0 else (a + n - 1) / 64 - a / 64 + 1

def State.pokeMain (s : State) (pa : Nat) (bs : Bytes) : State :=
  { s with stores := { s.stores with main := msetMany memDefault s.stores.main pa bs } }
def State.pokePark (s : State) (ppa : Nat) (bs : Bytes) : State :=
  { s with stores := { s.stores with park := msetMany memDefault s.stores.park ppa bs } }

/-- A partition-space read (R173, R174, R176). -/
def State.load (s : State) (q : Requester) (a n : Nat) : Except StoreErr Bytes × State :=
  let pa := s.msBase q.p + a
  onErr (s.readGrans q (pa / 64) (granCount pa n)) (fun e s => (.error e, s)) fun s => (.ok (s.rawMain pa n), s)

/-- The stage and its controller write part of a granule for a requester that may, under key `k`: a whole granule replaces poison, a
part is a read-modify-write (R176). -/
def State.serveWrite (s : State) (q : Requester) (k pa : Nat) (bs : Bytes) : Option StoreErr × State :=
  let g := pa / 64
  let l := linkOf (g * 64)
  let pg := pgMag (l / 4)
  if bs.length ≠ 64 && s.badMainAt g ≠ 0 then
    (some (.rmw (g * 64)), s.parityFault pg 12 (g * 64) (magInfo 5 l q.p q.unit))
  else
    let s := (s.count pg 0x4C 1).profile q.p fun f => { f with mem := f.mem + 1 }
    let s := if q.clsA then s.chargeA true 1 else s
    let s := if bs.length = 64 then s else s.count pg 0x5C 1
    (none, ((s.setBadMain g 0).setMainTag g k).pokeMain pa bs)

/-- Write part of one granule (R170, R171, R174). -/
def State.writeGran (s : State) (q : Requester) (pa : Nat) (bs : Bytes) : Option StoreErr × State :=
  let s := s.snoopFor q (pa / 64) true
  let g := pa / 64
  let l := linkOf (g * 64)
  let owner := s.ownerMain pa
  if owner ≠ some q.p || (s.part q.p).heldForScrub then
    (some (.refused (g * 64)), s.fault (pgMag (l / 4)) 15 (g * 64) (magInfo 7 l (owner.getD 0) q.unit))
  else if !(s.ctl (l / 4)).up.testBit (l % 4) then (some (.linkDown (g * 64)), s)
  else if s.stores.reported.contains g then (some (.addrErr (g * 64)), s.dropReport g)
  else s.serveWrite q (s.keyOf q.p) pa bs

/-- Write bytes granule by granule, in ascending order, stopping at the first failure.  `n` bounds the granules. -/
def State.writeGrans (s : State) (q : Requester) (pa : Nat) (bs : Bytes) (n : Nat) : Option StoreErr × State :=
  match n with
  | 0 => (none, s)
  | n + 1 =>
    let k := 64 - pa % 64
    onErr (s.writeGran q pa (bs.take k)) (fun e s => (some e, s)) fun s => s.writeGrans q (pa + k) (bs.drop k) n

/-- A partition-space write. -/
def State.store (s : State) (q : Requester) (a : Nat) (bs : Bytes) : Option StoreErr × State :=
  let pa := s.msBase q.p + a
  s.writeGrans q pa bs (granCount pa bs.length)

/-- Store bytes at a physical address with the whole granules poisoned (R234, R176). -/
def State.storePoison (s : State) (q : Requester) (a : Nat) (bs : Bytes) : Option StoreErr × State :=
  onErr (s.store q a bs) (fun e s => (some e, s)) fun s => (none, s.setBadMain ((s.msBase q.p + a) / 64) poison)

/-! ### Park tier (R177, R178) -/

/-- BLK_FINFO of the PARK page. -/
def parkInfo (kind i owner unit : Nat) : Word := word (kind + i * 8 + owner * 0x100 + unit * 0x10000)

/-- Read park granules for partition p's copy path. -/
def State.readParkGrans (s : State) (p unit g n : Nat) : Option StoreErr × State :=
  match n with
  | 0 => (none, s)
  | n + 1 =>
    let ppa := g * 64
    let i := ifOf ppa
    if s.ownerPark ppa ≠ some p then (some (.refused ppa), s.fault pgPark 13 ppa (parkInfo 7 i 0 unit))
    else if !(s.ctl 8).up.testBit i then (some (.linkDown ppa), s)
    else
      let s := s.count pgPark 0x48 1
      let bad := s.badParkAt g
      if bad = 0 then s.readParkGrans p unit (g + 1) n
      else if bad = poison then
        (some (.parity ppa), (s.count pgPark 0x54 1).parityFault pgPark 9 ppa (parkInfo 2 i p unit))
      else (some (.parity ppa), (s.count pgPark 0x50 1).parityFault pgPark 8 ppa (parkInfo 1 i p unit))

/-- A read of the park tier by the copy path. -/
def State.loadPark (s : State) (p unit ppa n : Nat) : Except StoreErr Bytes × State :=
  onErr (s.readParkGrans p unit (ppa / 64) (granCount ppa n)) (fun e s => (.error e, s)) fun s => (.ok (s.rawPark ppa n), s)

/-- A stripe is written under key `k`: clean, or poisoned where the plaintext failed (R176, R178). -/
def State.putStripe (s : State) (k ppa : Nat) (bs : Bytes) (bad : Nat → Bool) : State :=
  let s := (s.count pgPark 0x4C 8).pokePark ppa bs
  (List.range 8).foldl (fun s j =>
    let g := ppa / 512 * 8 + j
    (s.setBadPark g (if bad g then poison else 0)).setParkTag g k) s

/-- Whole-stripe writes of the copy path (R178): poison under them is replaced. -/
def State.writeStripes (s : State) (p unit ppa : Nat) (bs : Bytes) (bad : Nat → Bool) (n : Nat) : Option StoreErr × State :=
  match n with
  | 0 => (none, s)
  | n + 1 =>
    let i := ifOf ppa
    if s.ownerPark ppa ≠ some p then (some (.refused ppa), s.fault pgPark 13 ppa (parkInfo 7 i 0 unit))
    else if !(s.ctl 8).up.testBit i then (some (.linkDown ppa), s)
    else
      -- R176: a granule whose plaintext failed is stored poisoned, and the stage raises CRYPT_PARITY
      let hurt := (List.range 8).filter fun k => bad (ppa / 64 + k)
      let s := hurt.foldl (fun s k => s.parityFault pgPark 10 (ppa + 64 * k) (parkInfo 4 i p unit)) s
      let s := s.putStripe (s.keyOf p) ppa (fitBytes 512 (bs.take 512)) bad
      s.writeStripes p unit (ppa + 512) (bs.drop 512) bad n

/-- A write of the park tier by the copy path, stripe-aligned; `bad` names the granules whose plaintext fails. -/
def State.storePark (s : State) (p unit ppa : Nat) (bs : Bytes) (bad : Nat → Bool := fun _ => false) : Option StoreErr × State :=
  s.writeStripes p unit ppa bs bad (ceilDiv bs.length 512)

/-- A write within one stripe: a whole stripe is written, and a shorter one read, merged and written back (R178).  A parity error in
the data that must be kept writes nothing. -/
def State.serveStripe (s : State) (p unit key ppa : Nat) (bs : Bytes) : Option StoreErr × State :=
  let first := ppa / 512 * 8
  let kept (k j : Nat) : Bool := (s.badParkAt (first + k)).testBit j
    && (decide ((first + k) * 64 + j < ppa) || decide (ppa + bs.length ≤ (first + k) * 64 + j))
  if bs.length = 512 then (none, s.putStripe key ppa bs fun _ => false)
  else if (List.range 8).any fun k => (List.range 64).any (kept k) then
    (some (.rmw ppa), (s.count pgPark 0x5C 1).parityFault pgPark 11 ppa (parkInfo 5 (ifOf ppa) p unit))
  else (none, (s.count pgPark 0x58 1).putStripe key ppa bs fun _ => false)

/-! ### Rings (R46, R47) -/

/-- Bytes 0x00 to 0x3B of a record, then RING_SEQ (R46). -/
def recBytes (r : Rec) (produced : Nat) : Bytes :=
  leBytes 4 r.seq ++ leBytes 1 r.kind ++ leBytes 1 r.cls ++ leBytes 2 r.reason ++ leBytes 8 r.tag
  ++ leBytes 8 r.slate ++ leBytes 4 r.handle ++ leBytes 2 r.slot ++ leBytes 1 r.part ++ leBytes 1 r.flags
  ++ fitBytes 24 r.data ++ leBytes 4 0 ++ leBytes 4 produced

/-- FLAGS of a record written now (R46, R30, R32, R299). -/
def State.recFlags (s : State) (reh : Bool) : Nat :=
  b2n (s.clap.hold || s.clap.frameHold) + 2 * b2n s.clap.pred + 4 * b2n reh

/-- A failed ring write (R47). -/
def State.ringError (s : State) (p a : Nat) : State :=
  (s.fault pgSched 14 a (word p)).latchVec (4 * p + 2)

/-- Write a record and PRODUCED at a ring; the counter advances even where the store refuses. -/
def State.ringWrite (s : State) (p base slots produced : Nat) (r : Rec) : State :=
  let a := base + 64 + 64 * (produced % slots)
  let q : Requester := { p := p }
  let s := match s.store q a (recBytes r (produced + 1)) with
    | (none, s) => s
    | (some _, s) => s.ringError p a
  match s.store q base (leBytes 8 (produced + 1)) with
  | (none, s) => s
  | (some _, s) => s.ringError p base

def State.resSlots (s : State) (p : Nat) : Nat := s.rdn (pgPart p) 0x70
def State.tickSlots (s : State) (p : Nat) : Nat := s.rdn (pgPart p) 0x7C
def State.produced (s : State) (p : Nat) : Nat := mget (fun _ => 0) s.sched.resProduced p
def State.tickProduced (s : State) (p : Nat) : Nat := mget (fun _ => 0) s.sched.tickProduced p
def State.reservedOf (s : State) (p : Nat) : Nat := mget (fun _ => 0) s.sched.reserved p

def State.reserve (s : State) (p : Nat) : State :=
  { s with sched := { s.sched with reserved := mmod (fun _ => 0) s.sched.reserved p (· + 1) } }
def State.unreserve (s : State) (p : Nat) : State :=
  { s with sched := { s.sched with reserved := mmod (fun _ => 0) s.sched.reserved p (· - 1) } }

/-- A record of the result ring: vector 4p (R243). -/
def State.writeResult (s : State) (p : Nat) (r : Rec) : State :=
  let n := s.produced p
  let s := s.ringWrite p (s.rd64 (pgPart p) 0x68) (s.resSlots p) n
    { r with slate := s.clap.num, part := p, flags := r.flags ||| s.recFlags false }
  let s := { s with sched := { s.sched with resProduced := mset (fun _ => 0) s.sched.resProduced p (n + 1) } }
  s.latchVec (4 * p)

/-- A record of the tick ring, whatever CONSUMED holds: vector 4p + 1 (R47, R243). -/
def State.writeTick (s : State) (p : Nat) (r : Rec) : State :=
  let n := s.tickProduced p
  let s := s.ringWrite p (s.rd64 (pgPart p) 0x74) (s.tickSlots p) n
    { r with slate := s.clap.num, part := p, flags := r.flags ||| s.recFlags false }
  let s := { s with sched := { s.sched with tickProduced := mset (fun _ => 0) s.sched.tickProduced p (n + 1) } }
  s.latchVec (4 * p + 1)

/-- CONSUMED of partition p's result ring, as the store holds it. -/
def State.consumed (s : State) (p : Nat) : Nat :=
  leNat (s.rawMain (s.msBase p + s.rd64 (pgPart p) 0x68 + 8) 8)

/-- Room of the sweep's pseudocode (R44). -/
def State.room (s : State) (p : Nat) : Nat :=
  s.resSlots p - (s.produced p - s.consumed p) - s.reservedOf p

/-- Record of a request (R46). -/
def reqRec (kind reason slot : Nat) (r : Req) : Rec :=
  { seq := r.seq, kind := kind, cls := r.cls, reason := reason, tag := r.tag, handle := r.handle, slot := slot }

/-- The COMPLETED record of an accepted request: its reserved place is freed (R47). -/
def State.complete (s : State) (p reason slot : Nat) (r : Req) : State :=
  (s.unreserve p).writeResult p (reqRec 3 reason slot r)

/-- Queue a FAULT record for the next slate (R395). -/
def State.faultRec (s : State) (p cls reason tag handle slot : Nat) (data : Bytes) (reh : Bool) : State :=
  let r : Rec := { kind := 7, cls := cls, reason := reason, tag := tag, handle := handle, slot := slot, part := p,
                   flags := 4 * b2n reh, data := data }
  { s with sched := { s.sched with faults := s.sched.faults ++ [r] } }

end Sys2Proof.Machine
end

