-- ==== Sys2Proof/Machine/RegView.lean ====
section
/-! DEFINITION. Reading registers: the read-only views of the machine's state, the common header, freeze and
snapshot holds, tenant hiding, read-to-clear and the 64-bit latches (R12, R13, R252–R262, R430). -/
namespace Sys2Proof.Machine

def hi32 (n : Nat) : Nat := n / 2 ^ 32

/-- Words of an SMap word-vector view: bits [31:0] or [63:32] of a number. -/
def lohi (n : Nat) (hi : Bool) : Word := word (if hi then n / 2 ^ 32 else n)

def s8 (i : Int) : Nat := lowBits 8 i

/-- A bit map of a list of numbers, restricted to word w. -/
def mapWord (l : List Nat) (w : Nat) : Word :=
  word (l.foldl (fun acc n => if n / 32 = w then acc ||| (1 <<< (n % 32)) else acc) 0)

/-! ### GLOBAL, GAFFER, CLAPPER, SCHED, SCRIPT -/

def State.partMap (s : State) : Nat :=
  (List.range 16).foldl (fun acc p =>
    acc + (b2n (s.part p).enabled) * 2 ^ p + b2n (s.part p).heldForScrub * 2 ^ (16 + p)) 0

def State.evtMapWord (s : State) (w : Nat) : Word :=
  word ((List.range 32).foldl (fun acc b =>
    if implemented (32 * w + b) && (s.hdr (32 * w + b)).cause then acc + 2 ^ b else acc) 0)

def State.viewGlobal (s : State) (off : Nat) : Option Word :=
  if off = 0x44 then some (word (s.boot.tray + s.boot.slot * 0x100 + b2n s.boot.strapErr * 0x10000))
  else if off = 0x54 then some (word s.boot.cause)
  else if off = 0x58 then some (word (s.boot.stage + 16 * b2n s.boot.screenPass + 32 * b2n s.boot.screenFail))
  else if off = 0x5C then some (word s.partMap)
  else if off = 0x64 then some (lohi s.reg.snapTick false)
  else if 0x100 ≤ off ∧ off < 0x180 then some (s.evtMapWord ((off - 0x100) / 4))
  else none

/-- Highest rung in force, 0 for none. -/
def State.rung (s : State) : Nat :=
  (List.range 4).foldl (fun acc r => if s.power.rungs.testBit r then r + 1 else acc) 0

def State.viewGaffer (s : State) (off : Nat) : Option Word :=
  let w := s.power
  if off = 0x54 then some (word (w.level + 8 * s.rung + 64 * b2n w.episode + 128 * b2n w.unmet))
  else if off = 0x58 then some (word (min w.pwrP 511 + min w.pwrE 511 * 0x10000))
  else if off = 0x60 then some (word (b2n w.presentA + 2 * b2n w.presentB + 4 * b2n w.carryA + 8 * b2n w.carryB
      + 16 * b2n w.ocA + 32 * b2n w.ocB + 64 * b2n w.holdup))
  else if off = 0x64 then some (word (w.meterA.volt % 2 ^ 16 + w.meterA.amp % 2 ^ 16 * 2 ^ 16))
  else if off = 0x68 then some (word (w.meterB.volt % 2 ^ 16 + w.meterB.amp % 2 ^ 16 * 2 ^ 16))
  else if off = 0x6C then some (word (s8 w.tj + w.sensor % 64 * 0x100 + s8 w.inlet * 0x10000 + s8 w.outlet * 0x1000000))
  else if off = 0x74 then some (word w.domainOn)
  else if off = 0x78 then some (word w.ocDomain)
  else if off = 0x84 then some (word w.wrap)
  else if off = 0x8C then some (word (b2n w.refclk + 2 * b2n w.arithLock + 4 * b2n w.fabricLock + 8 + 16 * b2n w.clkHoldover))
  else if 0x90 ≤ off ∧ off < 0xAC then some (mapWord s.boot.screenPrime ((off - 0x90) / 4))
  else if off = 0xAC then some (mapWord s.boot.screenDraw 0)
  else if off = 0xB0 then some (word ((mapWord s.boot.screenFocus 0).toNat % 2 ^ 16 + s.boot.screenOther % 256 * 2 ^ 16))
  else if off = 0xB4 then some (word (min s.boot.screenMs 0xFFFF))
  else if off = 0xB8 then some (word (w.tripCause + w.tripDomain * 4 + s8 w.tripTj * 0x100))
  else none

def State.viewClapper (s : State) (off : Nat) : Option Word :=
  if off = 0x50 then some (lohi s.clap.num false)
  else if off = 0x60 then some (lohi s.clap.ts false)
  else if off = 0x64 then none
  else if off = 0x68 then some (word (lowBits 16 s.clap.phase))
  else none

def State.cueQueue (s : State) (o : Nat) : List Cue := mget (fun _ => []) s.sched.cues o

def State.viewSched (s : State) (off : Nat) : Option Word :=
  if off = 0x44 then some (word (min s.sched.sweepCycles 0xFFFF + min s.sched.swept 0xFFFF * 0x10000))
  else if off = 0x48 then some (match s.classA with | some r => word (r.handle + r.p * 0x10000) | none => 0xFFFF)
  else if off = 0x4C then some (word s.memARd)
  else if off = 0x50 then some (word s.memAWr)
  else if off = 0x54 then some (word s.sched.items.length)
  else if 0x60 ≤ off ∧ off < 0x80 then some (word (s.cueQueue ((off - 0x60) / 4)).length)
  else none

/-- Descriptors that must stay hot: a request outstanding or an item in flight (R143; log entry 8). -/
def State.hotCount (s : State) : Nat := s.script.hot.length

def State.viewScript (s : State) (off : Nat) : Option Word :=
  if off = 0x40 then some (word (s.script.stat + 16 * b2n s.script.sigOk))
  else if off = 0x44 then some (word s.script.ver)
  else if off = 0x48 then some (word s.script.heartbeat)
  else if off = 0x4C then some (word (min s.hotCount 32768))
  else if off = 0x54 then some (word (countIf (fun c => !c.ended) s.script.copies))
  else if off = 0x5C then some (word (s.periodUs * 1000 - 50000))
  else none

/-! ### SEC -/

/-- Is port q's link keyed with HM (R346)? -/
def State.keyedHM (s : State) (q : Nat) : Bool :=
  let t := s.port q
  t.opened && t.keys.any (fun k => k.active) && decide (t.peer < 0x4000)

def State.debugFlags (s : State) : Nat :=
  b2n s.sec.tapOpen + 2 * b2n s.sec.consoleOpen + 4 * b2n s.sec.pinTaken + 8 * b2n s.sec.coreHaltSeen

def certBytes (o n : Nat) : Bytes := (List.range n).map fun k => Config.identCert (o + k)

/-- SEC0; IDENT_DIGEST is SHA3-512 of IDENT_PK, the certificate bytes 0x028 to 0xA47 (R355). -/
def State.viewSec0 (s : State) (off : Nat) : Option Word :=
  if off = 0x40 then some (word (b2n s.sec.keysReady + 2 * b2n s.sec.rngOk + 4 * b2n (!s.sec.storeValid)
      + 8 * b2n ((List.range 16).any fun p => (s.part p).burning)))
  else if off = 0x44 then some (word (s.sec.counter + s.sec.spares * 0x10000))
  else if off = 0x48 then some (word Config.house)
  else if off = 0x4C then some (word s.sec.fuseState)
  else if off = 0x58 then some (word ((List.range 9).foldl (fun a q => a + b2n (s.keyedHM q) * 2 ^ q) 0))
  else if off = 0x5C then some (word ((List.range 16).foldl (fun a p => a + b2n (s.part p).exposed * 2 ^ p) 0))
  else if off = 0x60 then some (word s.debugFlags)
  else if off = 0x64 then some (word s.sec.sessions)
  else if off = 0x68 then some (lohi s.sec.lastDebug false)
  else if 0x70 ≤ off ∧ off < 0xB0 then
    some (word (leAt (sha3 (certBytes 0x28 2592)) (off - 0x70) 4))
  else if 0xB0 ≤ off ∧ off < 0xD0 then
    let w := (off - 0xB0) / 4
    some (word ((s.part (2 * w)).t + (s.part (2 * w + 1)).t * 0x10000))
  else none

def State.viewSec1 (s : State) (off : Nat) : Option Word :=
  -- the seal has read the store by its stage of start-up; the Reset column has 0 before
  if off = 0x54 then some (word (s.sec.fwResult + 16 * b2n (s.sec.storeValid && decide (3 ≤ s.boot.stage))))
  else if off = 0x58 then some (word s.sec.stagedVer)
  else if off = 0x5C then some (word (s.sec.stagedSvn + s.sec.svnFloor * 0x10000))
  else if off = 0x60 then some (word s.sec.storeVer)
  else if off = 0x64 then some (word s.sec.progress)
  else none

/-- CERT_DATA: the certificate word that CERT_SEL names (SEC3). -/
def State.viewSec3 (s : State) (off : Nat) : Option Word :=
  if off = 0x44 then some (word (leNat (certBytes (4 * s.rdn 0x00B 0x40) 4))) else none

/-! ### TWIN, CONT, REHEARSAL, DAILIES -/

def State.viewTwin (s : State) (off : Nat) : Option Word :=
  let t := s.twin
  if off = 0x4C then some (word (roleNo t.role + 4 * stepNo t.step + 32 * b2n t.sense + 64 * b2n t.drive
      + 128 * b2n s.cueEn + 256 * b2n t.claimBlock + 512 * b2n t.handover + 1024 * b2n t.gap
      + 2048 * b2n t.grave + 4096 * (s.boot.slot % 2) + 8192 * b2n t.claimPending))
  else if off = 0x50 then some (word t.takeEpoch)
  else if off = 0x64 then some (lohi t.judged false)
  else if off = 0x88 then some (word t.graveCode)
  else if off = 0x90 then some (lohi t.divTick false)
  else if off = 0xB8 then some (lohi (t.gapF.getD 0) false)
  else none

def State.convOpen (s : State) (kind conv : Nat) (ini : Bool) (q : Nat) : Bool :=
  s.links.convs.any fun c => c.kind = kind && c.conv = conv && c.initiator == ini && c.port = q && c.st = .opn

def State.viewCont (s : State) (off : Nat) : Option Word :=
  if off = 0x104 then some (word (b2n (s.convOpen 3 0 true 8) + 2 * b2n (s.convOpen 3 0 false 8)
      + (List.range 16).foldl (fun a p => a + b2n (s.convOpen 6 p true 8 || s.convOpen 6 p false 8) * 2 ^ (2 + p)) 0))
  else if off = 0x124 then some (word (min (s.twin.ckptQueue.map fun x => (x.1, x.2.1)).eraseDups.length 0xFFFFF))
  else none

/-- Entries with firings left (R402). -/
def State.entryLeft (s : State) (e : Nat) : Nat :=
  field (s.rd pgReh (0x100 + 0x10 * e)) 8 8 - mget (fun _ => 0) s.reh.fired e

def State.viewReh (s : State) (off : Nat) : Option Word :=
  if off = 0x44 then
    some (word ((List.range 16).foldl (fun a e => a + b2n (s.reh.armed && decide (0 < s.entryLeft e)) * 2 ^ e) 0
      + b2n s.reh.armed * 0x10000))
  else none

def State.viewDailies (s : State) (off : Nat) : Option Word :=
  if off = 0x44 then some (lohi s.dly.head false)
  else if off = 0x4C then some (word s.dly.recs.length)
  else if off = 0x60 then some (word s.dly.dumpSt)
  else if off = 0x64 then some (word s.dly.dumpCount)
  else none

/-! ### Ports -/

def State.portConvs (s : State) (q : Nat) : List Conv := s.links.convs.filter fun c => c.port = q

def convStNo : ConvSt → Nat
  | .closed => 0 | .opening => 1 | .opn => 2 | .closing => 3 | .silent => 4

def State.selConv (s : State) (q : Nat) : Option Conv := (s.portConvs q)[s.rdn (pgPort q) 0xE0]?

def rxActive (t : Port) : Option RxKey := t.keys.find? fun k => k.active

/-- CREDIT that the responder grants (R287). -/
def State.creditOf (s : State) (q : Nat) : Nat := min 64 (max 1 (field (s.fo (pgPort q) 0x60) 0 7))

def State.viewPort (s : State) (q off : Nat) : Option Word :=
  let t := s.port q
  if off = 0x44 then some (word (b2n t.linkUp + 2 * b2n t.saltTx.isSome + 4 * b2n (rxActive t).isSome
      + 8 * b2n (s.ptp.port == some q) + 16 * b2n (s.ptp.port == some q && s.ptp.locked)))
  else if off = 0x48 then some (word (if (rxActive t).isSome then t.peer else 0xFFFF))
  else if off = 0xB4 then some (word (if s.ptp.port == some q then lowBits 32 s.ptp.offset else 0))
  else if off = 0xB8 then some (word t.mixItem)
  else if off = 0xBC then some (word t.mixTile)
  else if 0xC0 ≤ off ∧ off < 0xD0 then some (word (t.saltTx.getD 0 / 2 ^ (8 * (off - 0xC0))))
  else if 0xD0 ≤ off ∧ off < 0xE0 then
    some (word (match rxActive t with | some k => k.salt / 2 ^ (8 * (off - 0xD0)) | none => 0))
  else if off = 0xFC then some (word (s.portConvs q).length)
  else if 0xE4 ≤ off ∧ off < 0xFC then
    match s.selConv q with
    | none => some 0
    | some c =>
      if off = 0xE4 then some (word (convStNo c.st + 8 * b2n (!c.initiator) + 16 * c.kind))
      else if off = 0xE8 then some (word (c.peer + c.conv * 0x10000))
      else if off = 0xEC then some (word c.epoch)
      else if off = 0xF0 then some (word c.peerEpoch)
      else if off = 0xF4 then some (word c.seq)
      else some (word (min (if c.initiator then c.flight.length else c.held.length) 255 + min (if c.initiator then c.credit else s.creditOf q) 255 * 0x100
        + min (if c.initiator then c.outq.length else b2n c.cur.isSome) 0xFFFF * 0x10000))
  else none

/-! ### Stores -/

/-- Numbers of the reads that a controller served since a count of them was cleared. -/
def State.servedSince (s : State) (m off : Nat) : List Nat :=
  let n := mget (fun _ => 0) s.reg.served (pgMag m)
  let c := min n (s.rdn (pgMag m) off)
  (List.range c).map fun k => n - c + k

/-- R169: 40 to 64 ns from command to data, and whether refresh delayed it, are free. -/
def State.viewMag (s : State) (m off : Nat) : Option Word :=
  let c := s.ctl m
  if off = 0x44 then some (word (c.up % 16 + c.training % 16 * 0x100))
  else if off = 0x60 then some (word (((s.servedSince m off).map fun k => 40 + Config.readTime m k % 25).foldl max 0))
  else if off = 0x64 then some (word ((s.servedSince m off).countP fun k => Config.readDelayed m k))
  else if off = 0x6C then some (word (c.scrub + 16 * c.scrubPart))
  else if off = 0x70 then some (word c.ptr)
  else if off = 0x74 then some (word c.left)
  else if off = 0x88 then some (lohi c.diag false)
  else if off = 0x8C then some (lohi c.diag true)
  else none

def State.viewPark (s : State) (off : Nat) : Option Word :=
  let c := s.ctl 8
  if off = 0x44 then some (word (c.up % 256 + c.hot % 256 * 0x100))
  else if off = 0x68 then some (word (c.scrub + 16 * c.scrubPart))
  else if off = 0x6C then some (word c.ptr)
  else if off = 0x70 then some (word c.left)
  else none

/-! ### Units -/

def State.fenced (s : State) (pg : Nat) : Bool := bit (s.fo pg 0x40) 0

def State.itemsOn (s : State) (pg : Nat) : List Item :=
  s.sched.items.filter fun i => i.page = pg && (i.st = .running || i.st = .waiting)

/-- HOLD of CELL_STAT and PIPE_STAT. -/
def State.unitHold (s : State) (pg : Nat) : Nat :=
  if s.heldByA pg then 1
  else if !(s.itemsOn pg).isEmpty then 2
  else if bit (s.rd pg 0x40) 0 then 3
  else 0

/-- The running item of a prime cell is of a WHOLE-residency record of its reel's cut list (R83, R98). -/
def State.wholeItem (s : State) (pg : Nat) : Bool :=
  s.sched.items.any fun i => i.page = pg && i.st = .running &&
    (match s.findReel i.p i.handle with
     | some r => leAt r.image (leAt r.image 0x50 8 + 64 * i.unit + 2) 1 = 1
     | none => false)

def State.viewPrime (s : State) (pg off : Nat) : Option Word :=
  let u := s.unit pg
  let hide := decide ((s.hdr pg).owner ≠ 0)
  if off = 0x44 then some (word (s.unitHold pg + 4 * b2n u.fencePending + 8 * b2n (s.wholeItem pg)
      + (if hide then 0 else 16 * u.reel) + (s.hdr pg).owner * 0x100000))
  else if off = 0x48 then some (word u.vcell)
  else if off = 0x68 then some (if hide then 0 else lohi u.mapCrc false)
  else if off = 0x74 then some (word (u.canPages + u.csPages * 0x10000))
  else if off = 0x78 then some (word (if hide then 0 else u.halo))
  else none

def State.unitRunning (s : State) (pg : Nat) : Bool :=
  s.sched.items.any fun i => i.page = pg && i.st = .running

def State.viewDraw (s : State) (pg off : Nat) : Option Word :=
  let u := s.unit pg
  let hide := decide ((s.hdr pg).owner ≠ 0)
  if off = 0x44 then some (word (s.unitHold pg + 4 * b2n (s.unitRunning pg) + (if hide then 0 else 16 * u.reel)
      + (s.hdr pg).owner * 0x100000))
  else if off = 0x48 then some (word u.canPages)
  else none

def State.viewFocus (s : State) (pg off : Nat) : Option Word :=
  let u := s.unit pg
  let hide := decide ((s.hdr pg).owner ≠ 0)
  if off = 0x44 then some (word (s.unitHold pg + 4 * b2n (s.unitRunning pg) + (if hide then 0 else 16 * u.reel)
      + (s.hdr pg).owner * 0x100000))
  else if off = 0x48 then
    match u.storeKey with
    | some (_, _, l, g) => some (word (if hide || !s.pageOn pg then 0 else l + g * 0x10000))
    | none => some 0
  else none

/-- CYCLES of the FRAME item in a class A image's call sheet (R106); 0 for none. -/
def frameClaim (im : Bytes) : Nat :=
  let o := leAt im 0x40 8
  match (List.range (leAt im 0x48 8 / 32)).find? fun k => leAt im (o + 32 * k + 2) 2 = 0x10 with
  | some k => leAt im (o + 32 * k + 8) 4
  | none => 0

def State.viewFraming (s : State) (off : Nat) : Option Word :=
  if off = 0x40 then
    let run := s.sched.items.filter fun i => i.page = pgFraming && i.st = .running
    some (word (b2n (!run.isEmpty) + 2 * b2n (run.any (fun i => i.cls = 1) && s.framingOwner == 0)))
  else if off = 0x58 then some (if s.framingOwner ≠ 0 then 0 else s.rd pgFraming 0x58)
  else if off = 0x5C then some (word (match s.classA with | some r => frameClaim r.image | none => 0))
  else none

def State.viewCutter (s : State) (off : Nat) : Option Word :=
  if off = 0x40 then some (word (b2n (s.unitRunning pgCutter) + 2 * b2n s.units.kat.busy))
  else if off = 0x44 then some (word (countIf (fun r => r.grammar) s.sched.reels))
  else none

def State.chanMap (s : State) (f : Channel → Bool) : Nat :=
  (List.range 32).foldl (fun a c => a + b2n (f (s.chan c)) * 2 ^ c) 0

def State.chanCount (s : State) (f : Channel → Bool) : Nat :=
  (List.range 32).foldl (fun a c => a + b2n (f (s.chan c))) 0

def State.viewSplicer (s : State) (off : Nat) : Option Word :=
  let shown := match s.splicer.slot with
    | some c => if (s.chan c).part = 0 then some c else none
    | none => none
  if off = 0x40 then some (word (shown.getD 0 + 32 * b2n shown.isSome
      + s.chanCount (fun c => c.eligible && c.part == 0) * 0x100
      + s.chanCount (fun c => c.st == 3 && c.part == 0) * 0x10000))
  else if off = 0x44 then some (word (s.chanMap fun c => c.classA))
  else if off = 0x48 then some (word (s.chanMap fun c => c.st == 3))
  else if off = 0x4C then some (word s.splicer.store.length)
  else none

def State.viewChannel (s : State) (c off : Nat) : Option Word :=
  let k := s.chan c
  if off = 0x44 then some (word (k.st + 4 * b2n k.pendingFire + 8 * b2n k.classA + 16 * k.vch
      + (if k.part = 0 then k.reel * 0x10000 else 0)))
  else if off = 0x48 then some (word (if k.part = 0 then k.desc else 0))
  else if off = 0x4C then some (word (if k.part = 0 then k.done else 0))
  else none

def State.teleMap (s : State) (base : Nat) : Nat :=
  (List.range 32).foldl (fun a c => a + b2n (s.tctx (base + c)).classA * 2 ^ c) 0

def State.viewTele (s : State) (off : Nat) : Option Word :=
  if off = 0x40 then
    match s.tele.engine with
    | some c => some (word (if (s.tctx c).part = 0 then c + 64 + 128 * b2n (s.tctx c).classA else 0))
    | none => some 0
  else if off = 0x44 then some (word (s.teleMap 0))
  else if off = 0x48 then some (word (s.teleMap 32))
  else if off = 0x4C then some (word s.tele.gapMax)
  else none

def State.viewTctx (s : State) (c off : Nat) : Option Word :=
  let t := s.tctx c
  if off = 0x44 then some (word (t.mode + 4 * t.st + 16 * b2n t.classA + 32 * t.vctx
      + (if t.part = 0 then t.reel * 0x10000 else 0)))
  else if off = 0x48 then some (word t.done)
  else if off = 0x4C then some (word (t.qp + 256 * b2n t.interPic))
  else if off = 0x50 then some (word (lowBits 64 t.full))
  else none

/-! ### Partition and D2D -/

def State.viewPartition (s : State) (p off : Nat) : Option Word :=
  let q := s.part p
  if off = 0x44 then some (word (b2n q.enabled + 2 * b2n q.scrubbing + 4 * b2n q.scrubOk + 8 * b2n q.scrubFailed
      + 16 * b2n q.bound))
  else if off = 0x80 then some (lohi (if q.bound then q.domain else 0) false)
  else if off = 0x84 then some (lohi (if q.bound then q.domain else 0) true)
  else if off = 0x88 then some (word q.bindEpoch)
  else if off = 0x8C then some (word ((s.reelsOf p).length + b2n ((s.reelsOf p).any fun r => r.cls = 1) * 0x10000))
  else none

/-- Is window p open (R229)?  In Wrap every window behaves as closed (R380). -/
def State.windowOpen (s : State) (p : Nat) : Bool :=
  (mget (fun _ => none) s.d2d.decoders p).isSome && (s.part p).enabled && (p == 0 || (s.part p).bound)
    && !s.closing p && decide (s.power.wrap < 2)

def State.viewD2d (s : State) (off : Nat) : Option Word :=
  let d := s.d2d
  if off = 0x40 then some (word (b2n s.linkLive + 2 * b2n d.ready + 4 * d.speed + 16 * d.modUp + 64 * d.ide
      + min d.repaired 255 * 0x100))
  else if 0x54 ≤ off ∧ off < 0x64 then some (word (d.saltZ / 2 ^ (8 * (off - 0x54))))
  else if 0x64 ≤ off ∧ off < 0x74 then some (word (d.saltD / 2 ^ (8 * (off - 0x64))))
  else if off = 0x74 then some (word ((List.range 16).foldl (fun a p => a + b2n (s.windowOpen p) * 2 ^ p) 0))
  else if off = 0x7C then some (word d.snoop.length)
  else if off = 0x8C then some (lohi d.latch false)
  else if off = 0x90 then some (lohi d.latch true)
  else if off = 0x94 then
    some (word ((List.range 16).foldl (fun a p => a + b2n (s.part p).bound * 2 ^ p) 0
      + b2n (d.doe.isSome || d.reportBody.isSome) * 0x10000))
  else none

/-- The read-only view of a register; none where the register holds its own value. -/
def State.view (s : State) (pg off : Nat) : Option Word :=
  match pageKind pg with
  | .none => none
  | .global => s.viewGlobal off
  | .gaffer => s.viewGaffer off
  | .clapper => s.viewClapper off
  | .sched => s.viewSched off
  | .script => s.viewScript off
  | .sec => if pg = 8 then s.viewSec0 off else if pg = 9 then s.viewSec1 off
            else if pg = 11 then s.viewSec3 off else none
  | .twin => s.viewTwin off
  | .cont => match s.viewCont off with | some w => some w | none => s.viewPort 8 off
  | .rehearsal => s.viewReh off
  | .dailies => s.viewDailies off
  | .port => s.viewPort (pg - 0x18) off
  | .mag => s.viewMag (pg - 0x20) off
  | .park => s.viewPark off
  | .splicer => s.viewSplicer off
  | .channel => s.viewChannel (pg - 0x30) off
  | .telecine => s.viewTele off
  | .tcctx => s.viewTctx (pg - 0x51) off
  | .framing => s.viewFraming off
  | .cutter => s.viewCutter off
  | .focus => s.viewFocus pg off
  | .prime => s.viewPrime pg off
  | .draw => s.viewDraw pg off
  | .partition => s.viewPartition (pg - 0x200) off
  | .d2d => s.viewD2d off

/-- The full value of a 64-bit pair that a read of its low word latches. -/
def State.pairValue (s : State) (pg off : Nat) : Nat :=
  match pageKind pg with
  | .global => s.reg.snapTick
  | .clapper => if off = 0x50 then s.clap.num else s.clap.ts
  | .twin => if off = 0x64 then s.twin.judged else if off = 0x90 then s.twin.divTick else s.twin.gapF.getD 0
  | .prime => if (s.hdr pg).owner ≠ 0 then 0 else (s.unit pg).mapCrc
  | .tcctx => if (s.tctx (pg - 0x51)).part ≠ 0 then 0 else lowBits 64 (s.tctx (pg - 0x51)).full
  | .dailies => s.dly.head
  | .sec => s.sec.lastDebug
  | _ => 0

/-- Registers that a tenant's ownership hides: they read 0 and clear nothing (R110, R139, R221, R262). -/
def State.hidden (s : State) (pg off : Nat) : Bool :=
  match pageKind pg with
  | .prime => decide ((s.hdr pg).owner ≠ 0) && decide (0x4C ≤ off) && decide (off ≤ 0x6C)
  | .draw => decide ((s.hdr pg).owner ≠ 0) && decide (0x4C ≤ off) && decide (off ≤ 0x60)
  | .focus => decide ((s.hdr pg).owner ≠ 0) && decide (0x4C ≤ off) && decide (off ≤ 0x70)
  | .channel => decide ((s.chan (pg - 0x30)).part ≠ 0) && off == 0x50
  | .tcctx => decide ((s.tctx (pg - 0x51)).part ≠ 0) && decide (0x48 ≤ off) && decide (off ≤ 0x68)
  | _ => false

/-- A block-specific register's value as software would read it, without the read's own effect. -/
def State.regValue (s : State) (pg off : Nat) : Word :=
  if s.hidden pg off then 0
  else match s.view pg off with
    | some w => w
    | none => s.rd pg off

/-! ### The header (R252) -/

/-- Bits of BLK_FINFO that give the cause or kind, kept for a tenant's fault (R262). -/
def finfoCause (pg : Nat) : Nat :=
  match pageKind pg with
  | .channel => 0x0F
  | .tcctx => 0x07
  | .mag | .park => 0x07
  | .port | .cont => 0x0F
  | _ => 0

/-- Block-specific BLK_STAT bits [27:0]. -/
def State.blkStat (s : State) (pg : Nat) : Nat :=
  match pageKind pg with
  | .clapper => s.src + 4 * b2n s.clap.locked + 8 * b2n (s.clap.hold || s.clap.pred) + 16 * b2n s.ptp.locked
  | _ => 0

def State.frozen (s : State) (pg : Nat) : Bool := (s.hdr pg).freeze || s.reg.snapHeld

/-- BLK_CTRL as it reads. -/
def Hdr.ctrl (h : Hdr) : Word := word (b2n h.enable + 2 * b2n h.rstBusy + 4 * b2n h.freeze + 8 * b2n h.lock)

def heldGet (s : State) (pg off : Nat) : Word := mget (fun _ => 0) s.reg.held (rk pg off)

/-- Read of a header word. -/
def State.readHdr (s : State) (pg off : Nat) : Word × State :=
  let h := s.hdr pg
  if off = 0x00 then (blkId pg, s)
  else if off = 0x04 then (0x0001A1B0, s)
  else if off = 0x08 then (h.ctrl, s)
  else if off = 0x0C then
    (word (s.blkStat pg + b2n h.lock * 2 ^ 28 + b2n (s.frozen pg) * 2 ^ 29 + b2n h.rstBusy * 2 ^ 30 + b2n h.synth * 2 ^ 31), s)
  else if off = 0x10 then (h.evt, s)
  else if off = 0x14 then (h.evtEn, s)
  else if off = 0x1C then
    if s.frozen pg then (heldGet s pg 0x1C, s)
    else (h.perr, s.modHdr pg fun h => { h with perr := 0 })
  else if off = 0x20 then (word (if h.tenantFault then 0 else h.faddr), s)
  else if off = 0x24 then (word (if h.tenantFault then 0 else hi32 h.faddr), s)
  else if off = 0x28 then
    (if h.tenantFault then word (h.finfo.toNat &&& finfoCause pg) else h.finfo, s)
  else if off = 0x2C then (word (s.ownerOf pg), s)
  else (0, s)

/-- BAR2's pages follow BAR0's 4,096 (R228). -/
def bar2Page : Nat := 4096

/-- A word of BAR2: the MSI-X table at 0, the pending bits at 0x8000, 0 elsewhere (R228, R244; log entry 23). -/
def State.bar2Read (s : State) (o : Nat) : Word :=
  if s.unreach pgD2d then 0
  else if o < 0x400 then mget msixReset s.d2d.msix (o / 4)
  else if o = 0x8000 then lohi s.d2d.latch false
  else if o = 0x8004 then lohi s.d2d.latch true
  else 0

/-- An aligned 32-bit register read (R12, R13, R228, R250–R262, R430). -/
def State.readReg (s : State) (pg off : Nat) : Word × State :=
  if bar2Page ≤ pg then (s.bar2Read ((pg - bar2Page) * 0x1000 + off), s)
  else if !implemented pg then (0, s)
  else if s.unreach pg then (0, s)
  else if off < 0x40 then s.readHdr pg off
  else if (s.hdr pg).rstBusy then (regReset (rk pg off), s)
  else
    match regRow pg off with
    | none => (0, s)
    | some r =>
      match r.acc with
      | .wo => (0, s)
      | .rw => (s.rd pg off, s)
      | .w1s => (s.rd pg off, s)
      | .ro =>
        if s.frozen pg then (heldGet s pg off, s)
        else
          let v := s.regValue pg off
          if latchesHi pg off then (v, s.wr pg (off + 4) (lohi (s.pairValue pg off) true))
          else if pg = 0x00B && off = 0x44 then
            (v, s.wr 0x00B 0x40 (word (if s.rdn 0x00B 0x40 = 1823 then 0 else s.rdn 0x00B 0x40 + 1)))
          else (v, s)
      | .rc =>
        if s.frozen pg then (heldGet s pg off, s)
        else if s.hidden pg off then (0, s)
        else (s.regValue pg off, s.wr pg off 0)

/-! ### Holding a page (R258, R259) -/

/-- Offsets of a page's RO and RC registers. -/
def heldOffsets (pg : Nat) : List Nat :=
  (pageRows pg).flatMap fun r =>
    if r.acc = .ro || r.acc = .rc then (List.range r.n).map fun k => r.off + 4 * k else []

/-- Capture what the page shows: every RO and RC register from 0x040, and BLK_PERR. -/
def State.holdPage (s : State) (pg : Nat) : State :=
  let h := (heldOffsets pg).foldl (fun h off => mset (fun _ => 0) h (rk pg off) (s.regValue pg off)) s.reg.held
  { s with reg := { s.reg with held := mset (fun _ => 0) h (rk pg 0x1C) (s.hdr pg).perr } }

/-- Drop the captured values: the live registers hold the sum of held value and shadow. -/
def State.dropHeld (s : State) (pg : Nat) : State :=
  { s with reg := { s.reg with held := mdrop (fun k => k / 0x1000 = pg) s.reg.held } }

end Sys2Proof.Machine
end

