-- ==== Sys2Proof/Machine/Gate.lean ====
section
/-! DEFINITION. What every register write passes first: unimplemented pages, switched-off domains, a block
reset in progress, reserved bits and the configuration lock (R11, R13, R228, R250, R254, R260, R380, R430). -/
namespace Sys2Proof.Machine

/-- Registers and fields that stay writable under OWNER_LOCK, as a mask (R260). -/
def lockOpen (pg off : Nat) : Nat :=
  match pageKind pg with
  | .global => if off = 0x50 || off = 0x60 then full else 0
  | .prime | .draw => if off = 0x40 || off = 0x70 then full else 0
  | .focus => if off = 0x40 then full else 0
  | .mag => if off = 0x40 then 0xF0 else if off = 0x7C || off = 0x80 || off = 0x84 then full else 0
  | .park => if off = 0x40 then 0xFF00 else 0
  | .channel | .tcctx => if off = 0x40 then full else 0
  | .cutter => if 0x68 ≤ off ∧ off ≤ 0x80 then full else 0
  | _ => 0

/-- Is the whole register in the table of R260? -/
def lockFree (pg off : Nat) : Bool := lockOpen pg off = full

/-- Set bits of a register that act like W1S or WO inside an RW register: RETRAIN (R260). -/
def setBits (pg off : Nat) : Nat :=
  match pageKind pg with
  | .mag => if off = 0x40 then 0xF0 else 0
  | .park => if off = 0x40 then 0xFF00 else 0
  | _ => 0

/-- A locked register's write: the open fields of the value, and whether LOCKED_WRITE is raised (R260). -/
def lockFilter (pg off : Nat) (old v : Word) : Option Word × Bool :=
  let op := word (lockOpen pg off)
  if op = 0 then (none, true)
  else if lockFree pg off then (some v, false)
  else
    let w1s := word (setBits pg off)
    let keep := old &&& ~~~w1s
    let hit := ((v ^^^ keep) &&& ~~~op) ≠ 0
    (some ((v &&& op) ||| (keep &&& ~~~op)), hit)

/-- A write that has come to its page: the state after its events, and the value to carry out, none where the write is dropped
or ignored (R13, R250, R254, R260). -/
def State.arrive (s : State) (pg off : Nat) (v : Word) : Option Word × State :=
  match regRow pg off with
  | none => (none, s.raiseIf (v ≠ 0) pg evReserved)
  | some r =>
    if (s.hdr pg).rstBusy then (none, s.refuse pg)
    else if r.acc = .ro || r.acc = .rc then (none, s)
    else
      let mask := word r.mask
      let s := s.raiseIf ((v &&& ~~~mask) ≠ 0) pg evReserved
      let v := v &&& mask
      if (s.hdr pg).lock then
        let (w, hit) := lockFilter pg off (s.rd pg off) v
        (w, s.raiseIf hit pg evLocked)
      else (some v, s)

/-- The common path of a BAR0 write to a block-specific register. -/
def State.gate (s : State) (pg off : Nat) (v : Word) : Option Word × State :=
  if !implemented pg || s.unreach pg then (none, s) else s.arrive pg off v

/-- A write of `v` whose action, once it has passed the gate, is `f`. -/
def State.gated (s : State) (pg off : Nat) (v : Word) (f : State → Word → State) : State :=
  match s.gate pg off v with
  | (none, s) => s
  | (some w, s) => f s w

end Sys2Proof.Machine
end

