-- ==== Sys2Proof/Machine/Fault.lean ====
section
/-! DEFINITION. Halts of items and what they report (R69, R109, R134, R137, R156, R392, R393, R395, R405, R406). -/
namespace Sys2Proof.Machine

/-! ### Items -/

def State.item (s : State) (id : Nat) : Option Item := s.sched.items.find? fun i => i.id = id

def State.modItem (s : State) (id : Nat) (f : Item → Item) : State :=
  { s with sched := { s.sched with items := s.sched.items.map fun i => if i.id = id then f i else i } }

def State.modRun (s : State) (p idx : Nat) (f : Run → Run) : State :=
  { s with script := { s.script with runs := s.script.runs.map fun r => if r.p = p && r.idx = idx then f r else r } }

def State.runOf (s : State) (p idx : Nat) : Option Run := s.script.runs.find? fun r => r.p = p && r.idx = idx

def State.modBatch (s : State) (p slot : Nat) (f : Batch → Batch) : State :=
  { s with sched := { s.sched with batches := s.sched.batches.map fun b => if b.p = p && b.slot = slot then f b else b } }

/-- WHEN of the tile identity (R69). -/
def Item.when (i : Item) : Nat :=
  if i.cls = 1 then i.tick else if i.cls = 2 then i.ctx % 2 ^ 20 + i.step * 2 ^ 20 else 0xFFFFF + i.step * 2 ^ 20

/-- UNIT of a fault record: the kind of unit (R395). -/
def unitNo (pg : Nat) : Nat :=
  match pageKind pg with
  | .prime => 1 | .draw => 2 | .focus => 3 | .cutter => 4 | .framing => 5 | .telecine | .tcctx => 6
  | .splicer | .channel => 7 | _ => 0

/-- TAG of the affected request, 0 for class A (R395). -/
def State.itemTag (s : State) (i : Item) : Nat :=
  if i.cls = 2 then match s.runOf i.p i.ctx with | some r => r.req.tag | none => 0
  else if i.cls = 3 then
    match s.sched.batches.find? fun b => b.p = i.p && b.slot = i.slot with | some b => b.req.tag | none => 0
  else 0

/-- SLOT of the affected request, 0xFFFF for class A. -/
def State.itemSlot (s : State) (i : Item) : Nat :=
  if i.cls = 2 then match s.runOf i.p i.ctx with | some r => r.slot | none => 0xFFFF
  else if i.cls = 3 then i.slot else 0xFFFF

/-- A FAULT record about an item (R395). -/
def State.itemRecord (s : State) (i : Item) (code : Nat) (data : Bytes) (reh : Bool) : State :=
  s.faultRec i.p i.cls code (s.itemTag i) (if i.cls = 2 then i.ctx else i.handle) (s.itemSlot i) data reh

/-- DATA of ITEM_PARITY, ITEM_BUS, ITEM_MIX and TRIG_LOST. -/
def Item.faultData (i : Item) : Bytes := leBytes 8 i.when ++ leBytes 2 i.idx ++ leBytes 1 (unitNo i.page)

def codeParity : Nat := 0x0101
def codeBus : Nat := 0x0102
def codeMix : Nat := 0x0103
def codeTrig : Nat := 0x0104

/-- Work that an injection affected carries FLAGS bit 2 (R405). -/
def State.markRehearsal (s : State) (i : Item) : State :=
  let s := s.modItem i.id fun i => { i with rehearsal := true }
  if i.cls = 1 then
    { s with sched := { s.sched with ticks := s.sched.ticks.map fun t =>
        if t.tick = i.tick && t.p = i.p then { t with rehearsal := true, valid := false } else t } }
  else if i.cls = 2 then s.modRun i.p i.ctx fun r => { r with rehearsal := true }
  else s.modBatch i.p i.slot fun b => { b with rehearsal := true }

/-- An item stops; the next slate abandons it (R393). -/
def State.stopItem (s : State) (i : Item) (code : Nat) (reh : Bool := false) : State :=
  let s := s.modItem i.id fun i => { i with st := .halted, haltCode := code }
  if reh then s.markRehearsal i else s

/-- A running item with the items that its draw cell batches (R114). -/
def State.batchOf (s : State) (i : Item) : List Item :=
  if pageKind i.page = .draw then i :: i.riders.filterMap s.item else [i]

/-- Halt an item and the items that it batches: the FAULT record of each is queued as well (R114, R395). -/
def State.haltItem (s : State) (i : Item) (code : Nat) (reh : Bool := false) : State :=
  (s.batchOf i).foldl (fun s j => (s.itemRecord j code j.faultData reh).stopItem j code reh) s

/-- The item that runs on a page. -/
def State.runningOn (s : State) (pg : Nat) : Option Item :=
  s.sched.items.find? fun i => i.page = pg && i.st = .running

/-- The real fault that meets an armed injection: the injection is REAL (R406). -/
def State.realFault (s : State) (pg : Nat) : State :=
  match s.takeInject pg with
  | (none, s) => s
  | (some i, s) => s.injectOutcome i.entry i.kind 3

/-! ### Prime cells (R109) -/

def cellEvent : CellFault → Nat
  | .can => 9 | .contactSheet => 10 | .fabric => 11 | .stream => 14

/-- A fault of a prime or draw cell's item `i`. -/
def State.cellHalt (s : State) (i : Item) (k : CellFault) (addr : Nat) (reh : Bool := false) : State :=
  let ev := if pageKind i.page = .draw then (match k with | .can => 9 | .contactSheet => 9 | .fabric => 10 | .stream => 11)
            else cellEvent k
  match k with
  | .stream => (s.fault i.page ev addr (word i.idx) reh).haltItem i codeBus reh
  | _ => (s.parityFault i.page ev addr (word i.idx) reh).haltItem i codeParity reh

/-- The 224 prime cells, then the 32 draw cells, whose stream buffers carry parity too (R114, R139). -/
def execCellParityHalt (c : Fin 256) (k : CellFault) (addr : Nat) (s : State) : Out :=
  let s := s.begin
  let pg := if c.val < 224 then pgPrime c.val else pgDraw (c.val - 224)
  .next (match s.runningOn pg with
    | none => s
    | some i => (s.realFault pg).cellHalt i k addr)

/-! ### Focus pipes (R134) -/

/-- Did the address hold a committed entry of the context's cache (R117, R156)? -/
def State.committedAt (s : State) (d : Desc) (p addr : Nat) : Bool :=
  if d.slotBytes = 0 ∨ addr < d.cacheAddr ∨ d.cacheAddr + d.cacheLen ≤ addr then false
  else
    let o := (addr - d.cacheAddr) % d.slotBytes
    let h := s.rawMain (s.msBase p + (addr - o)) 64
    let commit := leAt h 0x20 8
    if o < 64 then decide (commit ≠ 0)
    else
      let rowC := leAt h 0x0E 2 * fmtBits (leAt h 0x0C 1 % 16)
      let rowR := leAt h 0x10 1 * fmtBits (leAt h 0x0C 1 / 16)
      let b := (o - 64) * 8
      let i := if b < 64 * rowC then b / max rowC 1 else (b - 64 * rowC) / max rowR 1
      decide (i < 64) && commit.testBit i

def pipeEvent : PipeFault → Nat
  | .cache => 9 | .store => 10 | .fabric => 11 | .mismatch => 12

/-- A fault of a focus pipe's item. -/
def State.pipeHalt (s : State) (i : Item) (k : PipeFault) (addr : Nat) (reh : Bool := false) : State :=
  let lost := k = .mismatch || (k = .cache && s.committedAt (s.desc i.ctx) i.p addr)
  let s := if lost && i.cls = 2 then s.modRun i.p i.ctx fun r => { r with lostState := true } else s
  -- a BLOCK_MISMATCH is in no row of R395's table: it gives no FAULT record
  if k = .mismatch then (s.fault i.page (pipeEvent k) addr (word i.idx) reh).stopItem i 0 reh
  else (s.parityFault i.page (pipeEvent k) addr (word i.idx) reh).haltItem i codeParity reh

def execPipeFaultHalt (f : Fin 16) (k : PipeFault) (addr : Nat) (s : State) : Out :=
  let s := s.begin
  let pg := pgFocus f.val
  .next (match s.runningOn pg with
    | none => s
    | some i => (s.realFault pg).pipeHalt i k addr)

/-! ### Every item of a domain that loses power (R369) -/

/-- Halt the items on the pages of domain d, as on parity. -/
def State.haltDomain (s : State) (d : Nat) : State :=
  (s.sched.items.filter fun i => pageDomain i.page = d && (i.st = .running || i.st = .waiting)).foldl
    (fun s i => s.haltItem i codeParity) s

end Sys2Proof.Machine
end

