-- ==== Sys2Proof/Machine/Reel.lean ====
section
/-! DEFINITION. What a loaded reel holds, and how it is given back (R37, R40, R41, R107, R187, R189, R204). -/
namespace Sys2Proof.Machine

/-- The Gaffer clears its records when a reel is loaded or unloaded, or a partition enabled or disabled (R371). -/
def State.clearRecs (s : State) : State := { s with power := { s.power with recs := [], levelWhole := true } }

/-- Give a free slot to an eligible channel: class A first, then the lowest number (R191). -/
def State.grantSlot (s : State) : State :=
  if s.splicer.slot.isSome then s
  else
    let e := (List.range 32).filter fun c => (s.chan c).eligible
    let pick := match e.find? fun c => (s.chan c).classA with | some c => some c | none => e.head?
    match pick with
    | none => s
    | some c =>
      ({ s with splicer := { s.splicer with slot := some c } } : State).modChan c fun k => { k with st := 2, eligible := false }

/-- End a Splicer channel as an abort would, without its item (R200). -/
def State.idleChan (s : State) (c : Nat) : State :=
  let k := s.chan c
  -- the bytes that a halted descriptor copied before its end count (R201)
  let s := if k.st = 3 then
      s.countFor k.part pgSplicer (if k.classA then 0x50 else 0x54) (if k.classA then 0x190 else 0x194) (k.done / 64)
    else s
  let s := s.modChan c fun k => { k with st := 0, eligible := false, pendingFire := false, item := 0, done := 0 }
  if s.splicer.slot = some c then ({ s with splicer := { s.splicer with slot := none } } : State).grantSlot else s

/-- Free the physical units that a reel holds: cells, contexts, channels and descriptors. -/
def State.freeUnits (s : State) (r : Reel) : State :=
  let s := r.cells.foldl (fun s c => s.modUnit (pgPrime c) fun u =>
    { u with vcell := 0xFFFF, fencePending := false, canPages := 0, csPages := 0, halo := 0, halos := [] }) s
  let s := if r.cls = 1 then
      r.channels.foldl (fun s c => (s.idleChan c).modChan c fun k => { k with classA := false, vch := 0 }) s
    else s
  let s := r.teleCtx.foldl (fun s c => s.modTctx c fun t => { part := t.part, reel := t.reel }) s
  let s := match s.tele.engine with
    | some c => if r.teleCtx.contains c then { s with tele := { s.tele with engine := none } } else s
    | none => s
  { s with splicer := { s.splicer with
      store := mdrop (fun k => decide (r.splFirst ≤ k) && decide (k < r.splFirst + r.splCount)) s.splicer.store } }

/-- Discard every queued cue edge (R41, R386). -/
def State.dropCues (s : State) : State := { s with sched := { s.sched with cues := [] } }

/-- Focus pipes forget the up-projections of the reels (handle, partition) that satisfy `f`. -/
def State.dropKeys (s : State) (f : Nat → Nat → Bool) : State :=
  (List.range 16).foldl (fun s k =>
    match (s.unit (pgFocus k)).storeKey with
    | some (h, p, _) => if f h p then s.modUnit (pgFocus k) fun u => { u with storeKey := none } else s
    | none => s) s

/-- A reel is unloaded: its items, ticks, takes and units go, and its handle is free. -/
def State.dropReel (s : State) (r : Reel) : State :=
  let s := s.freeUnits r
  -- another reel may get the handle, and its up-projections are not these (R40, R122)
  let s := s.dropKeys fun h p => h = r.handle && p = r.p
  let keepItem (i : Item) : Bool := !(i.p = r.p && i.handle = r.handle)
  let s := { s with sched := { s.sched with
      reels := s.sched.reels.filter fun x => !(x.p = r.p && x.handle = r.handle)
      items := s.sched.items.filter keepItem
      -- the handle may be issued again from the next slate (R40)
      spent := s.sched.spent ++ [(r.p, r.handle)] } }
  let s := if r.cls = 1 then
      let s := { s with sched := { s.sched with ticks := [], takes := [], breakAt := none, lateRun := 0 } }
      { s with twin := { s.twin with step := .off, unjudgedRun := 0 }, tele := { s.tele with gapMax := 0xFFFFFFFF } }
    else s
  s.clearRecs

/-- Items of a partition that are still in a unit. -/
def State.partItems (s : State) (p : Nat) : List Item := s.sched.items.filter fun i => i.p = p

end Sys2Proof.Machine
end

