-- ==== Sys2Proof/Machine/Power.lean ====
section
/-! DEFINITION. Feeds, domains, the power cap, the thermal ladder, trips, Wrap and the clocks (R363–R382). -/
namespace Sys2Proof.Machine

def State.modPower (s : State) (f : Power → Power) : State := { s with power := f s.power }

/-! ### Feeds (R363–R366) -/

def Power.present (w : Power) (b : Bool) : Bool := if b then w.presentB else w.presentA
def Power.carry (w : Power) (b : Bool) : Bool := if b then w.carryB else w.carryA
def Power.oc (w : Power) (b : Bool) : Bool := if b then w.ocB else w.ocA
def Power.lost (w : Power) (b : Bool) : Bool := if b then w.lostB else w.lostA

/-- Set a feed's four bits: present, carrying, switch open, lost. -/
def Power.setFeed (w : Power) (b present carry oc lost : Bool) : Power :=
  if b then { w with presentB := present, carryB := carry, ocB := oc, lostB := lost }
  else { w with presentA := present, carryA := carry, ocA := oc, lostA := lost }

/-- A feed reaches 44 V: its soft start begins; an open switch has closed by now.  A feed that returns ends a hold-up (R363–R366). -/
def execFeedPresent (b : Bool) (s : State) : Out :=
  let s := s.begin
  .next (if s.power.present b then s
    else s.modPower fun w => { w.setFeed b true false false (w.lost b) with holdup := false })

/-- A feed's soft start ends: it carries, and ends a hold-up (R363, R365). -/
def execFeedBack (b : Bool) (s : State) : Out :=
  let s := s.begin
  .next (if !s.power.present b || s.power.carry b || s.power.oc b then s
    else
      let back := s.power.lost b
      let s := s.modPower fun w => { w.setFeed b true true false false with holdup := false }
      s.raiseIf back pgGaffer 9)

/-- With no feed carrying, the module runs on hold-up (R365). -/
def State.checkHoldup (s : State) : State :=
  if !s.power.carryA && !s.power.carryB then
    s.modPower fun w => { w with holdup := true, stInput := w.stInput ||| 8 }
  else s

def feedInfo (b : Bool) : Word := word (b2n b * 256)

/-- A feed has been below 40 V for 20 µs (R363). -/
def execFeedLost (b : Bool) (s : State) : Out :=
  let s := s.begin
  .next (if !s.power.present b then s
    else
      let s := s.modPower fun w => { w.setFeed b false false (w.oc b) true with stInput := w.stInput ||| 16 }
      (s.fault pgGaffer 8 0 (feedInfo b)).checkHoldup)

/-- A feed above 12 A for 100 µs: its switch opens (R366). -/
def execFeedOc (b : Bool) (s : State) : Out :=
  let s := s.begin
  .next (if !s.power.carry b then s
    else
      let s := s.modPower fun w => { w.setFeed b (w.present b) false true true with stInput := w.stInput ||| 4 }
      (s.fault pgGaffer 10 0 (feedInfo b)).checkHoldup)

/-! ### Domains (R367–R369) -/

def allDomains : Nat := 0x3FFFFFFF

/-- Domains that the Gaffer may gate at level 4 now (R367). -/
def State.gateable (s : State) (d : Nat) : Bool :=
  if decide (3 ≤ d) && decide (d ≤ 16) then
    match s.classA with
    | some r => !(r.cells.any fun c => c / 16 + 3 = d)
    | none => true
  else if decide (17 ≤ d) && decide (d ≤ 20) then true
  else if d = 22 then
    match s.classA with
    | some r => r.teleCtx.isEmpty
    | none => true
  else false

def State.domainBusy (s : State) (d : Nat) : Bool :=
  s.sched.items.any fun i => pageDomain i.page = d && (i.st = .running || i.st = .waiting)

def clearBit (m d : Nat) : Nat := if m.testBit d then m - 2 ^ d else m

/-- A gated focus pipe's store is empty: its STORE_KEY reads 0 (R368). -/
def State.emptyUnits (s : State) (d : Nat) : State :=
  (allPages.filter fun pg => pageDomain pg = d).foldl
    (fun s pg => s.modUnit pg fun u => { u with can := [], aux := [], ledgers := [], storeKey := none, residue := none }) s

/-- Gate the waiting domains whose last item has retired (R368). -/
def State.gateNow (s : State) : State :=
  (List.range 30).foldl (fun s d =>
    if s.power.gateWait.testBit d && !s.domainBusy d && s.power.domainOn.testBit d then
      (s.modPower fun w => { w with gateWait := clearBit w.gateWait d, domainOn := clearBit w.domainOn d,
                                    domainReady := clearBit w.domainReady d }).emptyUnits d
    else s) s

/-- At level 4 every domain that may be gated waits for its last item (R367, R368). -/
def State.gateAll (s : State) : State :=
  let m := (List.range 30).foldl (fun a d => if s.gateable d && s.power.domainOn.testBit d then a + 2 ^ d else a) 0
  (s.modPower fun w => { w with gateWait := m }).gateNow

/-- A slate at level 4 gates what an unloaded class A reel has left (DEDUCED from R367's table, log entry 96). -/
def State.gateAtSlate (s : State) : State := if s.power.level = 4 then s.gateAll else s

/-- Domains of cells and stream contexts that a class A reel takes while they are gated: raised, their units empty, before the load
writes them (DEDUCED: R367 gates no domain that class A holds; log entry 96). -/
def State.raiseFor (s : State) (cells ctxs : List Nat) : State :=
  (List.range 30).foldl (fun s d =>
    let held : Bool := (cells.any fun c => c / 16 + 3 = d) || (d = 22 && !ctxs.isEmpty)
    if held && !s.power.ocDomain.testBit d then
      let s := if s.power.domainReady.testBit d then s else s.emptyUnits d
      s.modPower fun w => { w with gateWait := clearBit w.gateWait d, domainOn := w.domainOn ||| 2 ^ d,
                                   domainReady := w.domainReady ||| 2 ^ d }
    else s) s

/-- The domains stand as a new level asks: gated at level 4, raised below it (R368). -/
def State.domainsFor (s : State) (level : Nat) : State :=
  if level = 4 then s.gateAll
  else s.modPower fun w => { w with gateWait := 0, domainOn := allDomains - (w.ocDomain &&& allDomains) }

/-- A raised domain is ready: every storage bit of its units holds zero (R368). -/
def execDomainReady (d : Fin 30) (s : State) : Out :=
  let s := s.begin
  .next (if s.power.domainOn.testBit d.val && !s.power.domainReady.testBit d.val then
      let s := (s.modPower fun w => { w with domainReady := w.domainReady ||| 2 ^ d.val }).emptyUnits d.val
      s.gateNow
    else s)

/-- Trip: TAKE released, every domain except AON removed (R378). -/
def State.trip (s : State) (cause d : Nat) (tj : Int) : State :=
  let s := s.releaseTake
  { s with
    power := { s.power with tripped := true, tripCause := cause, tripDomain := d, tripTj := tj, monTj := tj, domainOn := 1,
                            domainReady := 1, stTemp := if cause = 1 then s.power.stTemp ||| 128 else s.power.stTemp }
    d2d := { s.d2d with up := false, ready := false, director := false, ideKeys := [], ideCount := [] }
    links := { port := s.links.port.map fun e => (e.1, { e.2 with linkUp := false }), convs := [],
               past := s.links.convs.foldl keepEpoch s.links.past, nextConv := s.links.nextConv, rushNum := s.links.rushNum } }

/-- The 115 °C comparator (R378). -/
def execThermalTrip (tj : Int) (s : State) : Out :=
  let s := s.begin
  .next (if s.power.tripped then s else s.trip 1 0 tj)

/-- Does domain d hold a class A unit, or is it MAGA, MAGB or PORTS (R398)? -/
def State.domainHoldsA (s : State) (d : Nat) : Bool :=
  match s.classA with
  | none => false
  | some r =>
    d = 23 || d = 24 || d = 26 || r.cells.any (fun c => c / 16 + 3 = d) || (d = 22 && !r.teleCtx.isEmpty)
      || (d = 21 && decide (leAt r.image 0x20 4 ≠ 0))

/-- Page of a controller. -/
def ctlPage (m : Nat) : Nat := if m = 8 then pgPark else pgMag m

/-- A link or interface that was up, or one in training, is down: its RETRAIN bit reads 0 again, and LINK_DOWN or IF_DOWN is raised (R171). -/
def State.linkFalls (s : State) (m b : Nat) : State :=
  if !(s.ctl m).up.testBit b && !(s.ctl m).training.testBit b then s
  else
    let s := s.modCtl m fun c => { c with up := clearBit c.up b, training := clearBit c.training b }
    let pg := ctlPage m
    (s.wr pg 0x40 (setBit (s.rd pg 0x40) ((if m = 8 then 8 else 4) + b) false)).raise pg (if m = 8 then 12 else 13)

/-- A port's link goes down. -/
def State.linkLost (s : State) (q : Nat) : State :=
  if (s.port q).linkUp then (s.modPort q fun t => { t with linkUp := false }).raise (pgPort q) 8 else s

/-- Links, interfaces and ports of a domain that has lost power. -/
def State.dropLinks (s : State) (d : Nat) : State :=
  let down (s : State) (m : Nat) : State := (List.range (if m = 8 then 8 else 4)).foldl (fun s b => s.linkFalls m b) s
  if d = 23 then [0, 1, 2, 3].foldl down s
  else if d = 24 then [4, 5, 6, 7].foldl down s
  else if d = 25 then down s 8
  else if d = 26 then (List.range 8).foldl State.linkLost s
  else if d = 27 then s.linkLost 8
  else s

/-- A domain over its current limit for 20 µs is removed, or the module trips (R369). -/
def execDomainOc (d : Fin 30) (s : State) : Out :=
  let s := s.begin
  let d := d.val
  .next (if !s.power.domainOn.testBit d || s.power.tripped then s
    else
      let s := s.fault pgGaffer 11 0 (word d)
      let s := s.modPower fun w => { w with ocDomain := w.ocDomain ||| 2 ^ d }
      if d = 0 || d = 1 || d = 2 || d = 28 then s.trip 2 d s.power.tj
      else
        let grave := s.domainHoldsA d
        let s := s.modPower fun w => { w with domainOn := clearBit w.domainOn d, domainReady := clearBit w.domainReady d }
        let s := (s.haltDomain d).dropLinks d
        if grave then s.graveDiag .domainLost else s)

/-! ### The cap (R370–R373) -/

/-- Effective cap E (R371, R376). -/
def State.effCap (s : State) : Nat :=
  let cap := field (s.rd pgGaffer 0x44) 0 9
  let c2 := field (s.rd pgGaffer 0x50) 0 9
  let c3 := field (s.rd pgGaffer 0x50) 16 9
  if s.power.rungs.testBit 2 then min cap (min c2 c3)
  else if s.power.rungs.testBit 1 then min cap c2
  else cap

/-- A LEVEL record in every enabled partition's tick ring (R372). -/
def State.levelRecords (s : State) (l : Nat) : State :=
  (List.range 16).foldl (fun s p =>
    if (s.part p).enabled then s.writeTick p { kind := 6, data := leBytes 1 l } else s) s

/-- The level in force changes (R371, R372, R408). -/
def State.setLevel (s : State) (l p e : Nat) : State :=
  if l = s.power.level then s
  else
    let s := s.modPower fun w => { w with level := l, tickLevel := l }
    let s := s.note { tick := s.clap.num, kind := 4, info := leBytes 1 l ++ leBytes 1 s.rung ++ leBytes 2 0
                        ++ leBytes 2 p ++ leBytes 2 e ++ leBytes 8 0 }
    ((s.domainsFor l).raise pgGaffer 15).levelRecords l

/-- The evaluation of R371, with P and E. -/
def State.evaluate (s : State) (p e : Nat) : State :=
  let l := s.power.level
  let recOf (i : Nat) : Option Nat := mget (fun _ => none) s.power.recs i
  let s := if s.power.levelWhole then
      s.modPower fun w => { w with recs := mset (fun _ => none) w.recs l (some p) }
    else s.modPower fun w => { w with levelWhole := true }
  if !s.shedUnderCap then (s.raiseIf (decide (e < p)) pgGaffer 12).setLevel 0 p e
  else if decide (e < p) && decide (l < 4) then
    let s := s.raiseIf (!s.power.episode) pgGaffer 12
    (s.modPower fun w => { w with episode := true }).setLevel (l + 1) p e
  else if decide (e < p) then
    let s := s.raiseIf (!s.power.unmet) pgGaffer 14
    s.modPower fun w => { w with unmet := true }
  else
    let s := s.raiseIf s.power.episode pgGaffer 13
    let s := s.modPower fun w => { w with episode := false, unmet := false }
    let below := (recOf (l - 1)).getD p
    if decide (1 ≤ l) && decide (below + field (s.rd pgGaffer 0x48) 0 7 ≤ e) then s.setLevel (l - 1) p e else s

/-- The evaluation of the first slate of a whole second (R371). -/
def execEvaluationSlate (x : PowerSample) (s : State) : Out :=
  let s := s.begin
  .next (if !s.power.evalDue then s
    else
      let e := s.effCap
      let s := if 1 ≤ s.power.level then s.count pgGaffer 0x7C 1 else s
      let s := s.modPower fun w => { w with evalDue := false, pwrP := x.avg, pwrE := e }
      (s.countMax pgGaffer 0x5C x.peak).evaluate x.avg e)

/-! ### Sensors (R376, R377) -/

def State.rungTemp (s : State) (r : Nat) : Int := (field (s.rd pgGaffer 0x4C) (8 * r) 8 : Int)

/-- Rungs that come into force at this sample, each with its event. -/
def State.raiseRungs (s : State) : State :=
  (List.range 4).foldl (fun s r =>
    if !s.power.rungs.testBit r && decide (s.rungTemp r ≤ s.power.tj) then
      (s.modPower fun w => { w with rungs := w.rungs ||| 2 ^ r }).raise pgGaffer (16 + r)
    else s) s

/-- Keep the highest Tj since the last read (TJ_MAX). -/
def State.keepTjMax (s : State) (tj : Int) : State :=
  let old := s.rd pgGaffer 0x70
  if old = 0 || decide (sext 8 old.toNat < tj) then s.wr pgGaffer 0x70 (word (lowBits 8 tj)) else s

def execJunctionSample (x : SensorSample) (s : State) : Out :=
  let s := s.begin
  let flow := decide (x.outlet > x.inlet + 20) || decide (x.inlet > 45)
  let was := s.power.flowSuspect
  let s := s.modPower fun w => { w with
    tj := x.tj, monTj := x.tj, sensor := x.sensor, inlet := x.inlet, outlet := x.outlet, meterA := x.feedA, meterB := x.feedB,
    pinMs := x.pinMs, flowSuspect := flow, tickTj := max w.tickTj x.tj }
  let s := ((s.keepTjMax x.tj).countMax pgGaffer 0x5C x.pinMs).raiseRungs
  .next (s.raiseIf (flow && !was) pgGaffer 21)

/-- A rung leaves force (R376). -/
def execTClear (rung : Fin 4) (s : State) : Out :=
  let s := s.begin
  let r := rung.val
  .next (if s.power.rungs.testBit r && decide (s.power.tj < s.rungTemp r - 3) then
      let s := s.modPower fun w => { w with rungs := clearBit w.rungs r }
      s.raiseIf (s.power.rungs = 0) pgGaffer 20
    else s)

/-! ### Clocks (R382, R398) -/

def execRefclkLost (s : State) : Out :=
  let s := s.begin
  .next (if !s.power.refclk then s
    else (s.modPower fun w => { w with refclk := false, clkHoldover := true }).raise pgGaffer 23)

def execRefclkBack (s : State) : Out :=
  let s := s.begin
  .next (if s.power.refclk then s
    else (s.modPower fun w => { w with refclk := true, clkHoldover := false }).raise pgGaffer 24)

def execClock (fabric : Bool) (s : State) : Out :=
  let s := s.begin
  .next (if s.power.clkHoldover then s
    else
      let s := s.modPower fun w => if fabric then { w with fabricLock := false } else { w with arithLock := false }
      s.graveDiag .clock)

/-! ### Wrap (R379–R381) -/

/-- The conditions of R379. -/
def State.wrapOk (s : State) : Bool :=
  s.sched.reels.isEmpty && s.sched.loads.isEmpty && s.sched.items.isEmpty && s.script.copies.isEmpty
    && !(s.script.ctxs.any fun e => e.2.run)
    && !((List.range 16).any fun p => (s.part p).scrubbing)
    && !((List.range 32).any fun c => (s.chan c).eligible || decide ((s.chan c).st = 3))
    && (s.twin.role = .none || s.twin.role = .yielded)

/-- WRAP_CMD.ENTER: whether it was taken, and the state (R379, R381). -/
def State.wrapEnter (s : State) : Bool × State :=
  if s.power.wrap = 3 then (false, s.refuse pgGaffer)
  else if s.power.wrap ≠ 0 then (true, s)
  else if !s.wrapOk then (false, s.refuse pgGaffer)
  else if s.slatesOn then (true, s.modPower fun w => { w with wrapReq := 1 })
  else (true, s.modPower fun w => { w with wrap := 1, wrapReq := 0 })

/-- WRAP_CMD.WAKE (R381). -/
def State.wrapWake (s : State) : State :=
  if s.power.wrap = 1 then s.modPower fun w => { w with wakeAfterEntry := true }
  else if s.power.wrap = 2 then s.modPower fun w => { w with wrap := 3 }
  else s

/-- A pending ENTER at its slate (R379). -/
def State.enterAtSlate (s : State) : State :=
  if s.power.wrapReq = 0 then s
  else
    let s := s.modPower fun w => { w with wrapReq := 0 }
    if s.wrapOk then s.modPower fun w => { w with wrap := 1 } else s.refuse pgGaffer

def execEnter (s : State) : Out :=
  .next (s.begin.gated pgGaffer 0x80 1 fun s _ => s.wrapEnter.2)

def execWake (s : State) : Out :=
  .next (s.begin.gated pgGaffer 0x80 2 fun s _ => s.wrapWake)

/-- Domains powered in Wrap: AON, SEC, MAGA, MAGB, PARK, D2D, DIRECTOR (R367). -/
def wrapDomains : Nat := 0x33800003

/-- CLAP_CTRL.RUN reads 0 (R380). -/
def State.stopRun (s : State) : State :=
  let v := setBit (s.rd pgClapper 0x40) 0 false
  let s := (s.wr pgClapper 0x40 v).wrForce pgClapper 0x40 v
  { s with clap := { s.clap with run := false, first := true, due := none, haveEdge := false, winTaken := false } }

def execWrapped (s : State) : Out :=
  let s := s.begin
  .next (if s.power.wrap ≠ 1 then s
    else
      let wake := s.power.wakeAfterEntry
      let s := s.stopRun
      let s := s.modPower fun w => { w with
        wrap := if wake then 3 else 2, wakeAfterEntry := false,
        domainOn := wrapDomains &&& w.domainOn, domainReady := wrapDomains &&& w.domainReady }
      let s := (List.range 9).foldl (fun s q => s.modPort q fun t => { t with linkUp := false, keys := [], opened := false, saltTx := none }) s
      let s := { s.dropConvs (fun _ => true) with ptp := { s.ptp with locked := false, good := 0 } }
      s.raise pgGaffer 25)

/-- Links and interfaces that are enabled come up, in domains that are powered (R171, R369, R388). -/
def State.trainAll (s : State) : State :=
  (List.range 9).foldl (fun s m =>
    let on := s.power.domainOn.testBit (pageDomain (ctlPage m))
    s.modCtl m fun c => { c with up := if on then field (s.rd (ctlPage m) 0x40) 0 (if m = 8 then 8 else 4) else 0, training := 0 }) s

def execWoken (s : State) : Out :=
  let s := s.begin
  .next (if s.power.wrap ≠ 3 then s
    else
      let on := allDomains - (s.power.ocDomain &&& allDomains)
      let s := s.modPower fun w => { w with wrap := 0, domainOn := on, domainReady := on }
      let s := (List.range 30).foldl (fun s d => if wrapDomains.testBit d then s else s.emptyUnits d) s
      let s := { s.trainAll with script := { s.script with stat := 2, coreHalted := false } }
      let s := s.reopenPorts
      s.raise pgGaffer 26)

end Sys2Proof.Machine
end

