-- ==== Sys2Proof/Machine/Scrub.lean ====
section
/-! DEFINITION. Links and interfaces, the diagnostic read, scrubs, tenant changes and the end of a binding
(R171, R176–R184, R240, R241, R264, R265, R347, R348). -/
namespace Sys2Proof.Machine

/-- Does a main-store address lie in p's scrubbed areas? -/
def State.inArea (s : State) (p pa : Nat) : Bool :=
  (decide (s.msBase p ≤ pa) && decide (pa < s.msBase p + s.msSize p))
    || (decide (s.ctxFirst p * 256 ≤ pa) && decide (pa < (s.ctxFirst p + s.ctxCount p) * 256))

/-! ### Links (R171, R179) -/

/-- Controller, bit, page and the number of links of a link. -/
def LinkId.ctl : LinkId → Nat
  | .octal l => l.val / 4
  | .park _ => 8

def LinkId.bit : LinkId → Nat
  | .octal l => l.val % 4
  | .park i => i.val

def LinkId.page : LinkId → Nat
  | .octal l => pgMag (l.val / 4)
  | .park _ => pgPark

/-- SCRUB_ERR of a controller: so many scrub writes met an error, and its share will end FAILED (R181). -/
def State.scrubHit (s : State) (m n : Nat) : State :=
  if (s.ctl m).scrub = 1 then
    (s.modCtl m fun c => { c with scrubErr := true }).count (ctlPage m) (if m = 8 then 0x74 else 0x78) n
  else s

/-- A link that was up, or one in training, is down (R171, R388). -/
def execLinkDown (l : LinkId) (s : State) : Out :=
  let s := s.begin
  let m := l.ctl
  let was := (s.ctl m).up.testBit l.bit
  .next (if !was && !(s.ctl m).training.testBit l.bit then s
    else
      let s := (s.linkFalls m l.bit).scrubHit m 0
      match l with
      | .octal _ => if was && s.classALoaded then s.graveDiag .storeLink else s  -- R398
      | .park _ => s)

/-- Is a link enabled (LINK_EN, IF_EN)? -/
def State.linkEn (s : State) (l : LinkId) : Bool := bit (s.rd l.page 0x40) l.bit

/-- Start a training of a link. -/
def State.retrainLink (s : State) (l : LinkId) : State :=
  if s.linkEn l then
    s.modCtl l.ctl fun c => { c with up := clearBit c.up l.bit, training := c.training ||| 2 ^ l.bit }
  else s

/-- RETRAIN bits stand above the enables in MAG_CTRL and PARK_CTRL; the bit reads 1 until training ends. -/
def retrainBit (l : LinkId) : Nat := match l with | .octal _ => 4 + l.bit | .park _ => 8 + l.bit

/-- A write of LINK_EN or IF_EN: 0 holds a link down, a rising bit trains it (MAG_CTRL, PARK_CTRL). -/
def State.writeLinks (s : State) (m : Nat) (v : Word) : State :=
  let pg := ctlPage m
  let n := if m = 8 then 8 else 4
  let mk (b : Nat) : LinkId := if m = 8 then .park (Fin.ofNat 8 b) else .octal (Fin.ofNat 32 (4 * m + b))
  let old := s.rdn pg 0x40
  let keep := old / 2 ^ n * 2 ^ n
  -- RETRAIN bits already set stay until training ends
  let s := s.wr pg 0x40 (word (v.toNat % 2 ^ n + keep))
  (List.range n).foldl (fun s b =>
    if !bit v b then (s.modCtl m fun c => { c with up := clearBit c.up b, training := clearBit c.training b }).wr pg 0x40
      (setBit (s.rd pg 0x40) (n + b) false)
    else if !old.testBit b || bit v (n + b) then
      let s := s.retrainLink (mk b)
      if bit v (n + b) then s.wr pg 0x40 (setBit (s.rd pg 0x40) (n + b) true) else s
    else s) s

/-- RETRAIN (R171): the write of the retrain bit with the enables as they stand. -/
def execRetrain (l : LinkId) (s : State) : Out :=
  let s := s.begin
  let v := setBit (word (s.rdn l.page 0x40 % 2 ^ (if l.ctl = 8 then 8 else 4))) (retrainBit l) true
  .next (s.gated l.page 0x40 v fun s w => s.writeLinks l.ctl w)

def execRetrainDone (l : LinkId) (s : State) : Out :=
  let s := s.begin
  .next (if (s.ctl l.ctl).training.testBit l.bit then
      let s := s.modCtl l.ctl fun c => { c with up := c.up ||| 2 ^ l.bit, training := clearBit c.training l.bit }
      s.wr l.page 0x40 (setBit (s.rd l.page 0x40) (retrainBit l) false)
    else s)

/-- The magazine of a link reports the command word `cmd`, sent for the requester `unit`, on its sideband (R168, R170).  One that it
can carry out is not reported; the access behind one that it cannot fails when it is made. -/
def execAddrErr (l : Fin 32) (x : CmdBeat) (s : State) : Out :=
  let s := s.begin
  let g := paOf l.val (cmdGran x.word.toNat * 64)
  .next (if cmdOk x.word.toNat then s
    else
      let s := s.fault (pgMag (l.val / 4)) 14 g (magInfo 6 l.val ((s.ownerMain g).getD 0) x.unit.val)
      if s.stores.reported.contains (g / 64) then s
      else { s with stores := { s.stores with reported := s.stores.reported ++ [g / 64] } })

/-- Is the granule one that the controller's scrub in progress writes? -/
def State.scrubbing (s : State) (m g : Nat) : Bool := (s.ctl m).scrub = 1 && s.inArea (s.ctl m).scrubPart (g * 64)

/-- A downstream beat of a write for the requester `x.unit` failed parity: the granule is stored poisoned (R176, R179), a scrub
write's with it (R181). -/
def execParityWr (l : Fin 32) (x : WriteBeat) (s : State) : Out :=
  let s := s.begin
  let m := l.val / 4
  let g := x.pa / 64
  let s := (s.count (pgMag m) 0x58 1).parityFault (pgMag m) 10 (g * 64) (magInfo 3 l.val ((s.ownerMain (g * 64)).getD 0) x.unit.val)
  let s := s.setBadMain g poison
  .next (if s.scrubbing m g then (s.scrubHit m 1).modCtl m fun c => { c with scrubBad := c.scrubBad ++ [g] } else s)

/-- Derating begins or ends; HOT is raised while it is in force (R177). -/
def execHot (on : Bool) (i : Fin 8) (s : State) : Out :=
  let s := s.begin
  let was := (s.ctl 8).hot.testBit i.val
  let s := s.modCtl 8 fun c => { c with hot := if on then c.hot ||| 2 ^ i.val else clearBit c.hot i.val }
  .next (s.raiseIf (on && !was) pgPark 16)

/-- DIAG_GO: one granule's map of failing bytes, ignored unless the address is this controller's (R179). -/
def State.diagRead (s : State) (m : Nat) : State :=
  let pg := pgMag m
  let pa := (s.rdn pg 0x7C / 64 * 64) + 2 ^ 32 * (s.rdn pg 0x80 % 64)
  if decide (pa < mainSize) && linkOf pa / 4 = m && (s.ctl m).up.testBit (linkOf pa % 4) then s.modCtl m fun c => { c with diag := s.badMainAt (pa / 64) } else s

def execDiagGo (m : Fin 8) (v : Word) (s : State) : Out :=
  .next (s.begin.gated (pgMag m.val) 0x84 v fun s w => if bit w 0 then s.diagRead m.val else s)

/-! ### The end of a binding (R238, R240, R241) -/

/-- The DOE mailbox answers its request: the DOE interrupt is vector 3 (R242, R243). -/
def State.doeAnswer (s : State) (msg p status : Nat) (payload : Bytes) : State :=
  let s := s.emit (.doe { msg := msg, part := p, status := status, payload := payload })
  ({ s with d2d := { s.d2d with doe := none, reportBody := none } } : State).latchVec 3

/-- A BIND or GET_REPORT in progress for p completes with NOT_ENABLED (R241). -/
def State.doeNotEnabled (s : State) (p : Nat) : State :=
  let s := s.modPart p fun q => { q with bindReq := none }
  match s.d2d.doe with
  | none => s
  | some (m, _) => if m.part = p && (m.msg = 1 || m.msg = 2) then s.doeAnswer (m.msg + 0x80) p 2 [] else s

/-- Clear the latches of p's vectors (R240, R244). -/
def State.clearVecs (s : State) (p : Nat) : State :=
  if p = 0 then s
  else { s with d2d := { s.d2d with latch := s.d2d.latch - (s.d2d.latch &&& (15 * 2 ^ (4 * p))) } }

/-- p's binding ends, if it has one; a BIND or GET_REPORT in progress for it is answered, and UNBOUND still follows an UNBIND (R238). -/
def State.endBinding (s : State) (p : Nat) : State :=
  let s := s.doeNotEnabled p
  if (s.part p).bound then
    let s := s.modPart p fun q => { q with bound := false, lastDomain := some q.domain }
    (s.raise (pgPart p) 13).clearVecs p
  else s

/-! ### Scrubs (R180–R184) -/

/-- Physical context-table entries of a partition. -/
def State.ctxOf (s : State) (p i : Nat) : Bool :=
  decide (s.ctxFirst p ≤ i) && decide (i < s.ctxFirst p + s.ctxCount p)

/-- Every descriptor of p returns to FREE, with no record, and its park granules are released (R150, R386). -/
def State.freeContexts (s : State) (p : Nat) : State :=
  { s with
    script := { s.script with ctxs := mdrop (fun i => s.ctxOf p i) s.script.ctxs
                              hot := s.script.hot.filter fun i => !s.ctxOf p i
                              runs := s.script.runs.filter fun r => !(r.p = p)
                              copies := s.script.copies.filter fun c => !(c.p = p) }
    -- an all-zero descriptor is FREE (R140)
    stores := { s.stores with parkUse := mset (fun _ => []) s.stores.parkUse p []
                              main := mdrop (fun a => s.ctxOf p (a / 256)) s.stores.main
                              badMain := mdrop (fun g => s.ctxOf p (g / 4)) s.stores.badMain } }

/-- Bytes of a controller's share of p's areas: an eighth of the context blocks and the main-store range, or the park range (R181). -/
def State.shareBytes (s : State) (p m : Nat) : Nat :=
  if m = 8 then s.pkSize p else (s.msSize p + s.ctxCount p * 256) / 8

/-- Units of 2 MiB of a controller's share (R181). -/
def State.shareUnits (s : State) (p m : Nat) : Nat := ceilDiv (s.shareBytes p m) (2 ^ 21)

/-- A controller begins its share of p's scrub (R181). -/
def State.beginShare (s : State) (m p : Nat) : State :=
  s.modCtl m fun c => { c with
    scrub := 1, scrubPart := p, ptr := 0, left := s.shareUnits p m, scrubErr := false, scrubBad := [], paused := false }

/-- The scrub writes of p begin on every controller (R181). -/
def State.startShares (s : State) (p : Nat) : State :=
  let s := { s with stores := { s.stores with scrubs := s.stores.scrubs ++ [{ p := p }] } }
  (List.range 9).foldl (fun s m =>
    if (s.ctl m).scrub = 1 then s.modCtl m fun c => { c with scrubQueue := c.scrubQueue ++ [p] }
    else s.beginShare m p) s

/-- Marks p under scrub at its slate: the binding ends and the contexts are freed (R181, R241, R150). -/
def State.markScrub (s : State) (p : Nat) : State :=
  let s := s.endBinding p
  let s := s.modPart p fun q => { q with scrubbing := true, scrubReq := false, changeReq := false }
  let s := { s with sched := { s.sched with reserved := mset (fun _ => 0) s.sched.reserved p 0 } }
  ((s.freeContexts p).modPart p fun q => { q with enableReq := none }).latchVec (4 * p + 3)

/-- A scrub or tenant change takes effect at its slate. -/
def State.scrubStart (s : State) (p : Nat) : State :=
  let change := (s.part p).changeReq
  let s := s.markScrub p
  if change then s.modPart p fun q => { q with burning := true } else s.startShares p

/-- At a slate every accepted SCRUB and TENANT_CHANGE starts, in ascending p. -/
def State.scrubsAtSlate (s : State) : State :=
  (List.range 16).foldl (fun s p => if (s.part p).scrubReq then s.scrubStart p else s) s

/-- Condition of SCRUB (R265). -/
def State.scrubOkNow (s : State) (p : Nat) : Bool :=
  let q := s.part p
  !(s.hdr (pgPart p)).enable && !q.enabled && !q.scrubbing && !q.scrubReq && (s.reelsOf p).isEmpty

/-- PART_CMD.SCRUB. -/
def State.cmdScrub (s : State) (p : Nat) : State :=
  if !s.scrubOkNow p then s.refuse (pgPart p)
  else
    let s := s.modPart p fun q => { q with scrubReq := true }
    if s.slatesOn then s else s.scrubStart p

/-- Tenant changes accepted whose burn has not ended. -/
def State.pendingBurns (s : State) : Nat :=
  countIf (fun p => (s.part p).changeReq || (s.part p).burning) (List.range 16)

/-- PART_CMD.TENANT_CHANGE (R265, R347). -/
def State.cmdChange (s : State) (p : Nat) : State :=
  if !s.scrubOkNow p || p = 0 || !s.sec.keysReady then s.refuse (pgPart p)
  else if 4096 ≤ s.sec.counter + s.pendingBurns then (s.refuse (pgPart p)).raise pgSec0 8
  else
    let s := s.modPart p fun q => { q with scrubReq := true, changeReq := true }
    if s.slatesOn then s else s.scrubStart p

/-- PART_CMD.PRST. -/
def State.cmdPrst (s : State) (p : Nat) : State :=
  s.modPart p fun q => if q.prstReq then q else { q with prstReq := true, prstAt := s.clap.num }

/-- PART_CMD (R265): PRST, then TENANT_CHANGE, then SCRUB. -/
def State.partCmd (s : State) (p : Nat) (v : Word) : State :=
  let s := if bit v 2 then s.cmdPrst p else s
  let s := if bit v 1 then s.cmdChange p else s
  if bit v 0 then s.cmdScrub p else s

def execScrub (p : Fin 16) (s : State) : Out :=
  .next (s.begin.gated (pgPart p.val) 0x40 1 fun s w => s.partCmd p.val w)

def execTenantChange (p : Fin 16) (s : State) : Out :=
  .next (s.begin.gated (pgPart p.val) 0x40 2 fun s w => s.partCmd p.val w)

def execPrst (p : Fin 16) (s : State) : Out :=
  .next (s.begin.gated (pgPart p.val) 0x40 4 fun s w => s.partCmd p.val w)

/-! ### The fuse burn (R348) -/

/-- Outcome of a burn: an unburnt fuse uses a spare; none while the trace has not ended. -/
def burnResult (spares : Nat) : BurnTrace → Option (Bool × Nat)
  | [] => none
  | true :: _ => some (true, spares)
  | false :: r => if spares = 0 then some (false, 0) else burnResult (spares - 1) r

def execCounterBurnDone (p : Fin 16) (burns : BurnTrace) (s : State) : Out :=
  let s := s.begin
  let p := p.val
  let first := (List.range p).all fun j => !(s.part j).burning
  .next (if !(s.part p).burning || !first then s
    else
      match burnResult s.sec.spares burns with
      | none => s
      | some (true, n) =>
        let s := { s with sec := { s.sec with counter := s.sec.counter + 1, spares := n } }
        let s := s.modPart p fun q => { q with burning := false, t := s.sec.counter, scrubOk := false, exposed := false }
        s.startShares p
      | some (false, n) =>
        let s := { s with sec := { s.sec with spares := n } }
        let s := s.modPart p fun q => { q with burning := false, scrubbing := false, scrubFailed := true, scrubOk := false }
        (s.raise pgSec0 9).latchVec (4 * p + 3))

/-! ### Shares and the end (R180, R181) -/

/-- Place of a main-store address in p's areas, the context blocks first, as they lie in ascending order. -/
def State.areaOff (s : State) (p pa : Nat) : Nat :=
  if pa < chunkBase then pa - s.ctxFirst p * 256 else s.ctxCount p * 256 + (pa - s.msBase p)

/-- A scrub leaves zero under p's current key on a link's part of [lo, hi), and an earlier record of the range goes. -/
def State.zeroRange (s : State) (p link lo hi : Nat) : State :=
  if hi ≤ lo then s
  else { s with stores := { s.stores with
    zeroed := { link := link, lo := lo, hi := hi, key := s.keyOf p }
      :: s.stores.zeroed.filter fun z => !(z.link = link && decide (lo ≤ z.lo) && decide (z.hi ≤ hi)) } }

/-- Write the first `n` units of one controller's share: the ciphertext of zero under p's current key, with clean parity (R180, R181).
The granules of a link that is down are not written, and those that PARITY_WR hit stay poisoned. -/
def State.writeShare (s : State) (p m n : Nat) : State :=
  let up (b : Nat) : Bool := (s.ctl m).up.testBit b
  if m = 8 then
    let top := min (s.pkSize p) (n * 2 ^ 21)
    let hit (a : Nat) : Bool := decide (s.pkBase p ≤ a) && decide (a < s.pkBase p + top) && up (ifOf a)
    let s := { s with stores := { s.stores with
      park := mdrop hit s.stores.park
      badPark := mdrop (fun g => hit (g * 64)) s.stores.badPark
      parkTag := mdrop (fun g => hit (g * 64)) s.stores.parkTag } }
    (List.range 8).foldl (fun s i => if up i then s.zeroRange p (32 + i) (s.pkBase p) (s.pkBase p + top) else s) s
  else
    let top := n * 2 ^ 24
    let hit (a : Nat) : Bool := s.inArea p a && linkOf a / 4 = m && up (linkOf a % 4) && decide (s.areaOff p a < top)
    let bad := (s.ctl m).scrubBad
    let s := { s with stores := { s.stores with
      main := mdrop hit s.stores.main
      badMain := mdrop (fun g => hit (g * 64) && !bad.contains g) s.stores.badMain
      mainTag := mdrop (fun g => hit (g * 64)) s.stores.mainTag } }
    let c := s.ctxCount p * 256
    (List.range 4).foldl (fun s b =>
      if up b then
        (s.zeroRange p (4 * m + b) (s.ctxFirst p * 256) (s.ctxFirst p * 256 + min c top)).zeroRange p (4 * m + b) (s.msBase p)
          (s.msBase p + min (s.msSize p) (top - c))
      else s) s

/-- Links or interfaces of a controller that are down. -/
def State.downCount (s : State) (m : Nat) : Nat :=
  countIf (fun b => !(s.ctl m).up.testBit b) (List.range (if m = 8 then 8 else 4))

/-- A controller writes the next `k` units of its share: SCRUB_PTR passes them, and every granule write on a link that is down meets
an error (R181). -/
def State.advanceShare (s : State) (m k : Nat) : State :=
  let c := s.ctl m
  let k := min k c.left
  let p := c.scrubPart
  let bytes := min (s.shareBytes p m) ((c.ptr + k) * 2 ^ 21) - c.ptr * 2 ^ 21
  let s := s.writeShare p m (c.ptr + k)
  let s := s.modCtl m fun c => { c with ptr := c.ptr + k, left := c.left - k }
  let n := s.downCount m
  if n = 0 then s else s.scrubHit m (bytes / (if m = 8 then 8 else 4) / 64 * n)

/-- At a slate each share in progress has moved on by some units: the rate that traffic leaves it is not fixed (R182), so how many is
a free value.  The last unit ends with SCRUB_SHARE_DONE.  A share that a warm reset stopped resumes at its unit (R184). -/
def State.scrubAtSlate (s : State) : State :=
  (List.range 9).foldl (fun s m =>
    let c := s.ctl m
    if c.scrub ≠ 1 then s
    else if c.paused then s.modCtl m fun c => { c with paused := false }
    else if c.left ≤ 1 then s
    else
      let (n, s) := s.draw
      s.advanceShare m (Config.freeNat n % c.left)) s

/-- Are all of a controller's links or interfaces up? -/
def State.ctlUp (s : State) (m : Nat) : Bool := (s.ctl m).up = if m = 8 then 255 else 15

/-- Has every controller ended its share of p, and did one fail? -/
def State.scrubEnded (s : State) (p : Nat) : Option Bool :=
  match s.stores.scrubs.find? fun x => x.p = p with
  | some x => if x.ended.length = 9 then some x.failed else none
  | none => none

/-- The scrub of p completes, or ends failed (R181 steps 4 and 5). -/
def State.endScrub (s : State) (p : Nat) (failed : Bool) : State :=
  let s := { s with stores := { s.stores with scrubs := s.stores.scrubs.filter fun x => !(x.p = p) } }
  if failed then
    let s := s.modPart p fun q => { q with scrubbing := false, scrubFailed := true, scrubOk := false }
    s.raise (pgPart p) 11
  else
    let s := s.modPart p fun q => { q with scrubbing := false, scrubFailed := false, scrubOk := true }
    let s := (s.raise (pgPart p) 10).raise pgPark 14
    (List.range 8).foldl (fun s m => s.raise (pgMag m) 16) s

/-- A controller's share ends (R181 step 3); a scrub without slates ends with its last share (R249). -/
def State.shareDone (s : State) (m : Nat) (ok : Bool) : State :=
  let p := (s.ctl m).scrubPart
  let s := s.advanceShare m (s.ctl m).left
  let s := if ok || (s.ctl m).scrubErr then s else s.scrubHit m 1
  let bad := !ok || (s.ctl m).scrubErr
  let s := s.modCtl m fun c => { c with scrub := if bad then 3 else 2, scrubBad := [] }
  let s := s.raiseIf bad (ctlPage m) (if m = 8 then 15 else 17)
  let s := { s with stores := { s.stores with scrubs := s.stores.scrubs.map fun x =>
      if x.p = p then { x with ended := x.ended ++ [m], failed := x.failed || bad, last := s.clap.num } else x } }
  let s := match (s.ctl m).scrubQueue with
    | [] => s
    | q :: r => (s.modCtl m fun c => { c with scrubQueue := r }).beginShare m q
  if s.slatesOn then s
  else match s.scrubEnded p with
    | some f => s.endScrub p f
    | none => s

def execScrubShareDone (ctl : Fin 9) (ok : Bool) (s : State) : Out :=
  let s := s.begin
  .next (if (s.ctl ctl.val).scrub = 1 && !(s.ctl ctl.val).paused then s.shareDone ctl.val ok else s)

/-- A slate has passed since the last controller ended its share of p. -/
def State.scrubSlate (s : State) (p : Nat) : Bool :=
  s.stores.scrubs.any fun x => x.p = p && (!s.slatesOn || decide (x.last < s.clap.num))

def execScrubDone (p : Fin 16) (s : State) : Out :=
  let s := s.begin
  .next (match s.scrubEnded p.val with
    | some f => if s.scrubSlate p.val then s.endScrub p.val f else s
    | none => s)

/-! ### Partition reset and enabling (R265, R386) -/

/-- p's channels end as aborts, with no event (R200). -/
def State.endChannels (s : State) (p : Nat) : State :=
  (List.range 32).foldl (fun s c => if (s.chan c).part = p && (s.chan c).st ≠ 0 || (s.chan c).part = p && (s.chan c).eligible
    then s.idleChan c else s) s

/-- p's pictures end as RESTART_IDR does, with no event (R220). -/
def State.endPictures (s : State) (p : Nat) : State :=
  (List.range 64).foldl (fun s c =>
    let t := s.tctx c
    if t.part = p && t.picsLeft ≠ 0 then
      let s := s.modTctx c fun t => { t with
        st := 0, item := 0, pic := t.pic + t.picsLeft, picsLeft := 0, forceIdr := true, slice := 0, slicesDone := 0, picBytes := 0
        nalBytes := 0, sinceIdr := 0 }
      if s.tele.engine = some c then { s with tele := { s.tele with engine := none } } else s
    else s) s

/-- Offsets of a partition's totals (R266). -/
def totalOffsets : List Nat :=
  (pageRows 0x200).flatMap fun r => if r.acc = .rc then (List.range r.n).map fun k => r.off + 4 * k else []

def State.clearTotals (s : State) (p : Nat) : State :=
  totalOffsets.foldl (fun s off => s.wr (pgPart p) off 0) s

def State.clearShadows (s : State) (p : Nat) : State :=
  { s with sched := { s.sched with shadow := mdrop (fun k => k / 4096 = p) s.sched.shadow } }

/-- The partition reset of p at its slate (R386, R265).  A class A reel's units stay taken until two slates later. -/
def State.partReset (s : State) (p : Nat) : State :=
  let s := s.clearShadows p
  let s := s.endChannels p
  let s := s.endPictures p
  let s := (s.reelsOf p).foldl (fun s r =>
    if r.cls = 1 then
      (s.modReel p r.handle fun r => { r with stopped := true, unloadAt := some s.clap.num, unloadReqs := [] }).dropCues
    else s.dropReel r) s
  let s := { s with sched := { s.sched with
      items := s.sched.items.filter fun i => !(i.p = p)
      loads := s.sched.loads.filter fun l => !(l.p = p)
      batches := s.sched.batches.filter fun b => !(b.p = p)
      ticks := s.sched.ticks.filter fun t => !(t.p = p)
      reserved := mset (fun _ => 0) s.sched.reserved p 0 } }
  -- no pipe keeps what it loaded for the partition: STORE_KEY returns to 0 (R139)
  let s := (s.freeContexts p).dropKeys fun _ q => q = p
  let s := (s.endBinding p).modPart p fun q => { q with domain := 0, prstReq := false, prstBusy := true }
  s.clearTotals p

def execPartitionReset (p : Fin 16) (s : State) : Out :=
  let s := s.begin
  .next (if (s.part p.val).prstReq && s.slatePassed (s.part p.val).prstAt then s.partReset p.val else s)

def execPrstDone (p : Fin 16) (s : State) : Out :=
  let s := s.begin
  .next (if (s.part p.val).prstBusy && (s.partItems p.val).isEmpty then
      (s.modPart p.val fun q => { q with prstBusy := false }).raise (pgPart p.val) 14
    else s)

/-- Bytes of the three rings: request table, result ring, tick ring. -/
def State.ringRanges (s : State) (p : Nat) : List (Nat × Nat) :=
  [(s.rd64 (pgPart p) 0x5C, 64 * s.rdn (pgPart p) 0x64),
   (s.rd64 (pgPart p) 0x68, 64 + 64 * s.resSlots p), (s.rd64 (pgPart p) 0x74, 64 + 64 * s.tickSlots p)]

/-- Conditions of ENABLE = 1 (R265, R183). -/
def State.enableOk (s : State) (p : Nat) : Bool :=
  let rs := s.ringRanges p
  let meet (a b : Nat × Nat) : Bool := rangesMeet a.1 a.2 b.1 b.2
  (s.part p).scrubOk && decide (1 ≤ s.msChunks p) && decide (4096 ≤ s.ctxCount p)
    && rs.all (fun r => s.inSpace p r.1 r.2)
    && !meet (rs.getD 0 (0, 0)) (rs.getD 1 (0, 0)) && !meet (rs.getD 0 (0, 0)) (rs.getD 2 (0, 0))
    && !meet (rs.getD 1 (0, 0)) (rs.getD 2 (0, 0))

/-- PRODUCED of both rings is taken from the store when p is enabled (log entry 22). -/
def State.takeProduced (s : State) (p : Nat) : State :=
  let at8 (off : Nat) : Nat := leNat (s.rawMain (s.msBase p + s.rd64 (pgPart p) off) 8)
  { s with sched := { s.sched with resProduced := mset (fun _ => 0) s.sched.resProduced p (at8 0x68)
                                   tickProduced := mset (fun _ => 0) s.sched.tickProduced p (at8 0x74) } }

/-- p becomes enabled or disabled at its slate (R265, R241, R371). -/
def State.applyEnable (s : State) (p : Nat) (on : Bool) : State :=
  let s := s.modPart p fun q => { q with enableReq := none }
  if (s.part p).enabled = on then s
  else if on then
    let s := s.modPart p fun q => { q with enabled := true }
    ((((s.takeProduced p).clearShadows p).clearTotals p).clearRecs).raise (pgPart p) 8
  else
    let s := (s.endBinding p).modPart p fun q => { q with enabled := false }
    s.clearRecs.raise (pgPart p) 9

/-- At a slate every accepted write of a partition's ENABLE takes effect. -/
def State.enablesAtSlate (s : State) : State :=
  (List.range 16).foldl (fun s p =>
    match (s.part p).enableReq with
    | some on => s.applyEnable p on
    | none => s) s

/-- A write of the PARTITION page's ENABLE (R265). -/
def State.partEnable (s : State) (p : Nat) (on : Bool) : State :=
  if on && (!s.enableOk p || (s.part p).scrubbing || (s.part p).scrubReq) then s.refuse (pgPart p)
  else if !on && !(s.reelsOf p).isEmpty then s.refuse (pgPart p)
  else
    let s := s.modHdr (pgPart p) fun h => { h with enable := on }
    if s.slatesOn then s.modPart p fun q => { q with enableReq := some on } else s.applyEnable p on

end Sys2Proof.Machine
end

