-- ==== Sys2Proof/Machine/Reset.lean ====
section
/-! DEFINITION. Power-on, MRST_N and warm reset, start-up, the screen test, and the stop of the script core's
firmware (R54, R184, R241, R294, R312, R345, R365, R378, R384, R385, R388–R391, R406, R410, R413). -/
namespace Sys2Proof.Machine

/-- A reset during a counter burn leaves the fuse burnt or not, as a free value says (R348). -/
def State.cutBurn (s : State) : State :=
  if (List.range 16).any fun p => (s.part p).burning then
    let (k, s) := s.draw
    { s with sec := { s.sec with counter := s.sec.counter + Config.freeNat k % 2 } }
  else s

/-- What no reset changes: the waiting commands, the environment, the fuses and the image store (R344, R351, R352, R362). -/
def State.cold (s : State) (cause : Nat) (straps : Option (Fin 256)) : State :=
  let s := s.cutBurn
  let w := s.power
  { pending := s.pending, fresh := s.fresh, now := s.now, reg := { served := s.reg.served }
    parts := (List.range 16).foldl (fun m p => mmod (fun _ => ({} : Part)) m p fun q => { q with t := s.sec.counter }) []
    power := { presentA := w.presentA, presentB := w.presentB, meterA := w.meterA, meterB := w.meterB,
               monTj := w.monTj, refclk := w.refclk }
    -- the 1588 clock starts at 0 ns (R34)
    ptp := { mark := s.now }
    sec := { counter := s.sec.counter, spares := s.sec.spares, fuseState := s.sec.fuseState,
             svnFloor := s.sec.svnFloor, storeValid := s.sec.storeValid && !s.sec.writing,
             storeVer := s.sec.storeVer, storeSvn := s.sec.storeSvn, storeDigest := s.sec.storeDigest }
    twin := { sense := s.twin.sense }
    boot := { straps := straps, cause := cause } }

/-- A power-on reset begins (R384, R385): stage 0, everything else lost. -/
def execPowerOn (straps : Option (Fin 256)) (s : State) : Out := .next (s.cold 1 straps)

/-- Hold-up ends with both feeds lost, and a power-on reset begins (R365). -/
def execHoldup (s : State) : Out :=
  .next (if s.power.holdup then s.cold 1 s.boot.straps else s.begin)

/-- MRST_N low for 10 µs: as power-on, but the stores and LAST_TRIP keep what they hold; the bytes are
unreadable, since the keys are new (R184, R378, R385, R391). -/
def execMrstN (s : State) : Out :=
  let c := s.cold 2 s.boot.straps
  let w := s.power
  .next { c with
    stores := { s.stores with ctl := [], scrubs := [], parkUse := [], reported := [] }
    power := { c.power with carryA := w.carryA, carryB := w.carryB, ocA := w.ocA, ocB := w.ocB, lostA := w.lostA,
                            lostB := w.lostB, holdup := w.holdup, tripCause := w.tripCause, tripDomain := w.tripDomain,
                            tripTj := w.tripTj, tripped := w.tripped,
                            domainOn := if w.tripped then 1 else allDomains }
    boot := { c.boot with mrstLow := true } }

/-- Stage 0 ends: after a trip only below T1 (R378). -/
def State.leavePower (s : State) : State :=
  if s.boot.stage ≠ 0 || s.boot.mrstLow || (s.power.tripped && decide (s.rungTemp 0 ≤ s.power.monTj)) then s
  else { s with boot := { s.boot with stage := 1 }
                power := { s.power with tripped := false, domainOn := allDomains, domainReady := allDomains } }

/-- MRST_N returns high: stage 1, or stage 0 after a trip until Tj < T1 (R378, R384). -/
def execMrstNRelease (s : State) : Out :=
  let s := s.begin
  .next (if !s.boot.mrstLow then s
    else ({ s with boot := { s.boot with mrstLow := false } } : State).leavePower)

/-! ### Warm reset (R385, R390) -/

/-- Registers of a page return to their reset values, in both copies. -/
def State.clearPage (s : State) (pg : Nat) : State :=
  { s with reg := { s.reg with cur := mdrop (fun k => k / 0x1000 = pg) s.reg.cur
                               force := mdrop (fun k => k / 0x1000 = pg) s.reg.force
                               due := s.reg.due.filter fun k => !(k / 0x1000 = pg) } }

/-- Common headers at a warm reset: BLK_EVT_EN kept, everything else at reset, RESET_DONE raised (R257 table). -/
def State.warmHdrs (s : State) : State :=
  let h := allPages.foldl (fun m pg => mmod hdrReset m pg fun _ =>
    { hdrReset pg with evtEn := (s.hdr pg).evtEn }) []
  let s := { s with reg := { s.reg with hdr := h, held := [], snapHeld := false } }
  allPages.foldl (fun s pg => s.raise pg evResetDone) s

/-- Warm reset takes effect (R385): start-up enters at stage 3. -/
def State.warm (s : State) : State :=
  let s := s.releaseTake.cutBurn
  -- R348: a burn that the reset cut off leaves T_p, and the scrub runs under the unchanged key
  let s := (List.range 16).foldl (fun s p =>
    if (s.part p).burning then (s.modPart p fun q => { q with burning := false }).startShares p else s) s
  let s := (List.range 16).foldl (fun s p => s.endBinding p) s
  let s := s.sched.reels.foldl State.dropReel s
  let s := ((s.clearPage pgClapper).clearPage pgTwin).clearPage pgReh
  let s := (s.wr pgGaffer 0x40 0).wrForce pgGaffer 0x40 0
  let s := (List.range 16).foldl (fun s p => s.modPart p fun q =>
    { q with enabled := false, enableReq := none, prstReq := false, prstBusy := false, scrubReq := false,
             changeReq := false, bindReq := none, unbindReq := none, nonce := none }) s
  let s := { s with
    clap := { offset := s.clap.offset, stepBack := s.clap.stepBack, sec := s.clap.sec, prevSec := s.clap.prevSec, ts := s.clap.ts }
    sched := {}
    script := { ver := s.script.ver, svn := s.script.svn, digest := s.script.digest, heartbeat := s.script.heartbeat, ctxs := s.script.ctxs }
    acts := []
    -- each controller's share of a scrub resumes at the first slate (R184)
    stores := { s.stores with ctl := s.stores.ctl.map fun (e : Nat × Ctl) => (e.1, if e.2.scrub = 1 then { e.2 with paused := true } else e.2) }
    sec := { s.sec with rngOk := false, fwResult := if s.sec.writing then 7 else s.sec.fwResult, writing := false,
                        storeValid := s.sec.storeValid && !s.sec.writing, staged := none, coreHaltSeen := s.sec.coreHaltSeen }
    units := { unit := s.units.unit }
    links := { port := s.links.port.map fun (e : Nat × Port) => (e.1, { linkUp := e.2.linkUp }), rushNum := s.links.rushNum }
    splicer := {}
    tele := { gapMax := s.tele.gapMax }
    twin := { sense := s.twin.sense }
    reh := {}
    d2d := { s.d2d with doe := none, reportBody := none }
    shot := none
    power := { s.power with ocDomain := 0, domainOn := allDomains, domainReady := allDomains, gateWait := 0,
                            wrap := 0, wrapReq := 0, wakeAfterEntry := false, evalDue := false }
    boot := { s.boot with stage := 3, cause := 3, warm := true, warmReq := none, screenPass := false, screenFail := false } }
  s.warmHdrs

/-- WARM_RST: the key, or WRITE_REFUSED (GLOBAL page). -/
def State.writeWarmRst (s : State) (v : Word) : State :=
  if v ≠ 0x57525354 then s.refuse pgGlobal
  else { s with boot := { s.boot with warmReq := some s.clap.num } }

def execWarmRst (v : Word) (s : State) : Out :=
  .next (s.begin.gated pgGlobal 0x50 v State.writeWarmRst)

def execWarmReset (s : State) : Out :=
  let s := s.begin
  .next (match s.boot.warmReq with
    | some t => if s.slatePassed t then s.warm else s
    | none => s)

/-! ### Start-up (R388, R413) -/

/-- Strap values: tray, slot, STRAP_ERR (R413). -/
def strapRead (v : Nat) : Nat × Nat × Bool :=
  let ones := countIf (fun i => v.testBit i) (List.range 8)
  (v % 32, v / 32 % 4, decide (ones % 2 = 0) || decide (23 < v % 32))

/-- Stage 1: straps and FUSE_STATE; stage 9 when a root is unprogrammed or a strap is unreadable. -/
def State.stageFuses (s : State) (o : StageOutcome) : State :=
  match s.boot.straps with
  | none => { s with boot := { s.boot with stage := 9 }, power := { s.power with domainOn := 1, domainReady := 1 } }
  | some v =>
    let (t, sl, e) := strapRead v.val
    let s := ({ s with boot := { s.boot with tray := t, slot := sl, strapErr := e } } : State).raiseIf e pgGlobal 8
    if o = .fuseFault || s.sec.fuseState % 8 ≠ 7 then
      { s with boot := { s.boot with stage := 9 }, power := { s.power with domainOn := 1, domainReady := 1 } }
    else { s with boot := { s.boot with stage := 2 } }

/-- Stage 3: keys, BOOT_NONCE and T_p after a cold start; the die-to-die link is READY (R223, R345, R385). -/
def State.stageSeal (s : State) : State :=
  let s := if s.boot.warm then s
    else
      let (n, s) := s.draw
      let s := { s with sec := { s.sec with bootNonce := n } }
      (List.range 16).foldl (fun s p => s.modPart p fun q => { q with t := s.sec.counter }) s
  ({ s with sec := { s.sec with keysReady := true, rngOk := true }, d2d := { s.d2d with ready := true, director := true }
            boot := { s.boot with stage := 4 } } : State).reopenPorts

/-- Stage 5: the image runs, or RECOVERY (R351, R388). -/
def State.stageFirmware (s : State) (o : StageOutcome) : State :=
  if o = .imageInvalid || !s.sec.storeValid then
    { s with boot := { s.boot with stage := 8 }, script := { s.script with stat := 0, sigOk := false } }
  else
    { s with boot := { s.boot with stage := 6 }
             script := { s.script with stat := 2, sigOk := true, ver := s.sec.storeVer, svn := s.sec.storeSvn,
                                       digest := s.sec.storeDigest } }

def execStartupStageDone (o : StageOutcome) (s : State) : Out :=
  let s := s.begin
  let st := s.boot.stage
  .next (if st = 0 then s.leavePower
    else if s.power.tripped then s
    else if st = 1 then s.stageFuses o
    else if st = 2 then { s with boot := { s.boot with stage := 3 } }
    else if st = 3 then s.stageSeal
    else if st = 4 then
      let s := s.trainAll
      { s with boot := { s.boot with stage := 5 }, script := { s.script with stat := 1 } }
    else if st = 5 then s.stageFirmware o
    else s)

/-- Fence a unit that failed the screen test (R390). -/
def State.fenceUnit (s : State) (pg : Nat) : State := (s.wr pg 0x40 1).wrForce pg 0x40 1

def execScreenTestDone (r : ScreenResult) (s : State) : Out :=
  let s := s.begin
  .next (if s.boot.stage ≠ 6 then s
    else
      let pr := r.primeFailed.filter fun c => decide (c < 224)
      let dr := r.drawFailed.filter fun c => decide (c < 32)
      let fo := r.focusFailed.filter fun c => decide (c < 16)
      let fail := r.other % 256 ≠ 0
      let s := pr.foldl (fun s c => s.fenceUnit (pgPrime c)) s
      let s := dr.foldl (fun s c => s.fenceUnit (pgDraw c)) s
      let s := fo.foldl (fun s c => s.fenceUnit (pgFocus c)) s
      let s := { s with boot := { s.boot with
        stage := 7, screenPass := !fail, screenFail := fail, screenMs := r.ms, screenPrime := pr, screenDraw := dr,
        screenFocus := fo, screenOther := r.other % 256, warm := false } }
      let s := s.raiseIf (!(pr.isEmpty && dr.isEmpty && fo.isEmpty)) pgGaffer 28
      s.raise pgGaffer 27)

/-! ### The script core stops (R54) -/

/-- Does the script core take no work? -/
def State.scriptDown (s : State) : Bool := s.script.stat ≠ 2 || s.script.coreHalted

def execFwFault (s : State) : Out :=
  let s := s.begin
  .next (if s.script.stat ≠ 2 then s
    else ({ s with script := { s.script with stat := 3 } } : State).raise pgScript 9)

def execScriptLate (s : State) : Out :=
  let s := s.begin
  .next (if s.script.lateDue then ({ s with script := { s.script with lateDue := false } } : State).raise pgScript 8 else s)

end Sys2Proof.Machine
end

