-- ==== Sys2Proof/Machine/Wire.lean ====
section
/-! DEFINITION. A protocol frame on the wire: addresses (R273), the protocol header (R279), the clear salt frame (R275), and
MACsec with GCM-AES-XPN-256 (R274; IEEE 802.1AE, NIST SP 800-38D). -/
namespace Sys2Proof.Machine

/-! ### Addresses (R273) -/

/-- Address of endpoint `id` on its port `q`. -/
def endpointAddr (q id : Nat) : Bytes := [0x02, 0x5A, 0x39, toByte (q % 16)] ++ beBytes 2 id

/-- Address of the slate frames of the group whose lead is `lead`. -/
def slateAddr (lead : Nat) : Bytes := [0x03, 0x5A, 0x39, 0x40] ++ beBytes 2 lead

/-- Address of clear salt frames. -/
def saltAddr : Bytes := [0x03, 0x5A, 0x39, 0xFF, 0xFF, 0xFE]

/-! ### Headers -/

/-- EtherTypes of MACsec and of the protocol (R270, R274). -/
def etherSec : Nat := 0x88E5
def etherReel : Nat := 0x88B5

/-- The 56 bytes of the protocol header (R279). -/
def Frame.header (f : Frame) : Bytes :=
  beBytes 1 (f.ver * 16) ++ beBytes 1 f.typ ++ beBytes 1 f.kind ++ beBytes 1 f.flags ++ beBytes 2 f.src ++ beBytes 2 f.dst
    ++ beBytes 2 f.conv ++ beBytes 1 f.part ++ beBytes 1 f.rsvd ++ beBytes 4 f.epoch ++ beBytes 4 f.peerEpoch ++ beBytes 4 f.seq
    ++ beBytes 4 f.ack ++ beBytes 8 f.sack ++ beBytes 2 f.credit ++ beBytes 2 f.payload.length ++ beBytes 8 f.msg
    ++ beBytes 4 f.offset ++ beBytes 4 f.msgLen

/-- Secure data: EtherType, header, payload (R274). -/
def Frame.secure (f : Frame) : Bytes := beBytes 2 etherReel ++ f.header ++ f.payload

/-- A clear salt frame of endpoint `src` from its port `q`, padded to the Ethernet minimum without FCS (R275). -/
def saltBytes (q an src salt : Nat) : Bytes :=
  let b := saltAddr ++ endpointAddr q src ++ beBytes 2 etherReel
    ++ [0x10, 0x09, toByte (an % 4), 0] ++ beBytes 2 src ++ [0, 0] ++ beBytes 16 salt
  b ++ List.replicate (60 - b.length) 0

/-- The SecTAG with its EtherType: TCI 0x2C with the AN, SL 0 since a frame has at least 58 bytes, the low half of the packet
number, and the SCI (R274). -/
def secTag (q src an pn : Nat) : Bytes :=
  beBytes 2 etherSec ++ [toByte (0x2C + an % 4), 0] ++ beBytes 4 pn ++ endpointAddr q src ++ beBytes 2 1

/-! ### GCM-AES-XPN-256 -/

/-- Product of GHASH's field: `n` bits of `x` from its most significant end. -/
def ghashMul (n x v z : Nat) : Nat :=
  match n with
  | 0 => z
  | n + 1 =>
    ghashMul n x (if v % 2 = 1 then v / 2 ^^^ (0xE1 <<< 120) else v / 2) (if x.testBit n then z ^^^ v else z)

/-- GHASH over whole blocks. -/
def ghash (h : Nat) (n : Nat) (b : Bytes) (y : Nat) : Nat :=
  match n with
  | 0 => y
  | n + 1 => ghash h n (b.drop 16) (ghashMul 128 (y ^^^ beNat (b.take 16)) h 0)

def padBlock (b : Bytes) : Bytes := b ++ List.replicate (roundUp b.length 16 - b.length) 0

/-- Counter mode from counter `i`. -/
def gctr (rk : List (List Nat)) (iv : Bytes) (n i : Nat) (b : Bytes) : Bytes :=
  match n with
  | 0 => []
  | n + 1 =>
    (xorBytes (natsOf (b.take 16)) (aesEnc rk (natsOf (iv ++ beBytes 4 i)))).map toByte ++ gctr rk iv n (i + 1) (b.drop 16)

/-- AES-256-GCM: the ciphertext and the 16-byte ICV. -/
def gcmSeal (key iv aad plain : Bytes) : Bytes :=
  let rk := roundKeys (natsOf key)
  let h := beNat ((aesEnc rk (List.replicate 16 0)).map toByte)
  let c := gctr rk iv (ceilDiv plain.length 16) 2 plain
  let m := padBlock aad ++ padBlock c ++ beBytes 8 (8 * aad.length) ++ beBytes 8 (8 * c.length)
  c ++ gctr rk iv 1 1 (beBytes 16 (ghash h (m.length / 16) m 0))

/-- The XPN initialisation vector: SSCI and packet number, exclusive or the XPN salt. -/
def xpnIv (src pn : Nat) (salt : Bytes) : Bytes :=
  (xorBytes (natsOf (beBytes 4 src ++ beBytes 8 pn)) (natsOf salt)).map toByte

/-- A protected frame without its FCS, from port `q` of endpoint `src` to address `da`, under the 44 bytes of SAK and XPN salt. -/
def protect (key da : Bytes) (q src an pn : Nat) (plain : Bytes) : Bytes :=
  let aad := da ++ endpointAddr q src ++ secTag q src an pn
  aad ++ gcmSeal (key.take 32) (xpnIv src pn (key.drop 32)) aad plain

end Sys2Proof.Machine
end

