-- ==== Sys2Proof/Machine/Link.lean ====
section
/-! DEFINITION. The Reel Link Protocol: frames and keys, conversations and their timers, messages (R269–R294,
R302–R305, R310). -/
namespace Sys2Proof.Machine

/-! ### Frames and numbers -/

/-- a − b by serial arithmetic (R285). -/
def serial (a b : Nat) : Int := sext 32 (a + 2 ^ 32 - b % 2 ^ 32)

def seqAdd (a n : Nat) : Nat := (a + n) % 2 ^ 32

/-- Frame types (R280). -/
def tyData : Nat := 1
def tyAck : Nat := 2
def tyOpen : Nat := 3
def tyOpenAck : Nat := 4
def tyClose : Nat := 5
def tyCloseAck : Nat := 6
def tyReset : Nat := 7
def tyProbe : Nat := 8
def tyDatagram : Nat := 10

/-- BLK_FINFO of a PORT page (R310). -/
def portInfo (cause member conv kind : Nat) : Word := word (cause + member % 64 * 16 + conv % 256 * 0x10000 + kind % 256 * 0x1000000)

/-- PROTO_ERR: counted, raised and latched. -/
def State.protoErr (s : State) (q : Nat) (f : Frame) : State :=
  (s.count (pgPort q) 0x98 1).fault (pgPort q) 25 f.msg (portInfo 7 0 f.conv f.kind)

/-- Are all fields that the type does not use zero, and are VER, KIND and PART right (R279, R280)? -/
def Frame.formed (f : Frame) (ty : Nat) : Bool :=
  let epochs := ty ≠ tyDatagram
  let two := epochs && ty ≠ tyOpen
  f.ver = 1 && f.typ = ty && decide (1 ≤ f.kind) && decide (f.kind ≤ 7) && decide (f.part < 16) && f.rsvd = 0
    && (epochs || f.epoch = 0) && (two || f.peerEpoch = 0)
    && (ty = tyData || ty = tyProbe || ty = tyClose || f.seq = 0)
    && (ty = tyAck || (f.ack = 0 && f.sack = 0))
    && (ty = tyAck || ty = tyOpenAck || f.credit = 0)
    && (ty = tyData || ty = tyDatagram || f.msg = 0)
    && (ty = tyData || (f.offset = 0 && f.msgLen = 0 && f.flags = 0))
    && decide (f.flags < 64) && decide (f.credit ≤ 64) && decide (f.payload.length ≤ 8192)
    && (ty = tyData || ty = tyDatagram || (if ty = tyReset then f.payload.length = 2 else f.payload.isEmpty))

/-- Is an endpoint the twin that the TWIN page names? -/
def State.isTwin (s : State) (id : Nat) : Bool := s.paired && id = s.partnerId

/-! ### Sending -/

/-- Can the port send a protected frame (R275, R346)? -/
def State.portSends (s : State) (q : Nat) : Bool :=
  let t := s.port q
  t.opened && t.linkUp && t.saltTx.isSome && !t.keys.isEmpty

/-- The clear salt frame, announced before the first protected frame (R275). -/
def State.announce (s : State) (q : Nat) : State :=
  let t := s.port q
  match t.saltTx with
  | some v =>
    if t.opened && t.linkUp then
      (s.modPort q fun t => { t with announced := true }).emit
        (.saltFrame q ((t.salts + 3) % 4) s.moduleId v (saltBytes q ((t.salts + 3) % 4) s.moduleId v))
    else s
  | none => s

/-- Endpoint ID of the link partner, as its salt frame names it (R346). -/
def State.partner (s : State) (q : Nat) : Nat :=
  let t := s.port q
  if t.keys.any fun k => k.active then t.peer else match t.keys.getLast? with | some k => k.src | none => 0xFFFF

/-- Ethernet address that a frame goes to (R273, R299). -/
def State.destAddr (s : State) (q : Nat) (f : Frame) : Bytes :=
  if f.kind = 2 then slateAddr (field (s.fo pgGlobal 0x4C) 0 14)
  else endpointAddr (if q = 8 then 8 else Config.farPort q f.dst) f.dst

/-- The bytes of frame f on the wire of port q, under packet number `pn` and the port's SAK (R274, R275, R345, R346). -/
def State.wire (s : State) (q pn : Nat) (f : Frame) : Bytes :=
  let t := s.port q
  let an := (t.salts + 3) % 4
  let key := macsecKey (linkKeyOf (s.partner q)) s.moduleId an (leBytes 16 (t.saltTx.getD 0))
  protect key (s.destAddr q f) q s.moduleId an pn f.secure

/-- Send a protocol frame; a port that cannot send loses it. -/
def State.tx (s : State) (q : Nat) (f : Frame) : State :=
  if !s.portSends q then s
  else
    let s := if (s.port q).announced then s else s.announce q
    let pn := (s.port q).pn + 1
    let w := s.wire q pn f
    ((s.modPort q fun t => { t with pn := pn }).count (pgPort q) 0x70 1).emit (.frame q f w)

/-- A frame of a conversation with its common fields. -/
def State.convFrame (s : State) (c : Conv) (ty : Nat) : Frame :=
  { typ := ty, kind := c.kind, src := s.moduleId, dst := c.peer, conv := c.conv, part := c.part,
    epoch := c.epoch, peerEpoch := if ty = tyOpen then 0 else c.peerEpoch }

/-- A RESET that answers frame f (R280, R292). -/
def State.sendReset (s : State) (q : Nat) (f : Frame) (own reason : Nat) : State :=
  s.tx q { typ := tyReset, kind := f.kind, src := s.moduleId, dst := f.src, conv := f.conv, part := f.part,
           epoch := own, peerEpoch := f.epoch, payload := beBytes 2 reason }

/-! ### The conversation table -/

def State.modConv (s : State) (id : Nat) (f : Conv → Conv) : State :=
  { s with links := { s.links with convs := s.links.convs.map fun c => if c.id = id then f c else c } }

def State.conv (s : State) (id : Nat) : Option Conv := s.links.convs.find? fun c => c.id = id

/-- A conversation by its identity (R282). -/
def State.findConv (s : State) (q kind conv peer : Nat) (ini : Bool) : Option Conv :=
  s.links.convs.find? fun c => c.port = q && c.kind = kind && c.conv = conv && c.peer = peer && c.initiator == ini

def State.dropConv (s : State) (id : Nat) : State := s.dropConvs fun c => c.id = id

/-- The epoch before, of the conversation that this end opens now; 0 for none. -/
def State.pastEpoch (s : State) (q kind conv peer : Nat) (ini : Bool) : Nat :=
  match s.links.past.find? fun e => e.isOf q kind conv peer ini with
  | some e => e.epoch
  | none => 0

def State.addConv (s : State) (c : Conv) : State :=
  { s with links := { s.links with convs := s.links.convs ++ [{ c with id := s.links.nextConv }],
                                   nextConv := s.links.nextConv + 1 } }

/-- A new epoch: random, nonzero and unlike the previous one (R284); none while the generator is stopped. -/
def State.newEpoch (s : State) (prev : Nat) : Option (Nat × State) :=
  if !s.sec.rngOk then none
  else
    let (n, s) := s.draw
    let r := Config.randomBits n % 2 ^ 32
    some (if r ≠ 0 ∧ r ≠ prev then r else prev % (2 ^ 32 - 1) + 1, s)

/-- FLAGS.EXPOSED: a conversation other than TAKE and RESULT on a link keyed with HL (R357). -/
def State.checkExposed (s : State) (q kind part : Nat) : State :=
  if kind = 1 || kind = 7 || (s.port q).keys.isEmpty || decide (s.partner q < 0x4000) || (s.part part).exposed then s
  else (s.modPart part fun p => { p with exposed := true }).raise pgSec0 14

/-- The key of a port's link may have changed: EXPOSED for the conversations that run on it (R346, R357). -/
def State.exposeOn (s : State) (q : Nat) : State :=
  (s.links.convs.filter fun c => c.port = q).foldl (fun s c => s.checkExposed q c.kind c.part) s

/-! ### The initiator's queue (R287–R289) -/

/-- Data bytes in a frame: a MIX frame holds an 8-byte sub-header and up to 341 records (R305). -/
def frameRoom (kind : Nat) : Nat := if kind = 4 then 8184 else 8192

def mixHeader (m : OutMsg) : Bytes := beBytes 2 m.item ++ leBytes 1 m.member ++ leBytes 1 (b2n m.closed) ++ leBytes 4 0

/-- The frame that carries message m from byte `o`. -/
def State.dataFrame (s : State) (c : Conv) (m : OutMsg) (o : Nat) : Frame :=
  let d := (m.data.drop o).take (frameRoom c.kind)
  let last := m.data.length ≤ o + d.length
  { s.convFrame c tyData with
    flags := b2n (o = 0) + 2 * b2n last + m.flags, seq := c.seq, msg := m.msg, offset := m.off0 + o,
    msgLen := m.total, payload := if c.kind = 4 then mixHeader m ++ d else d }

/-- Send new frames while the window allows. -/
def State.pumpLoop (s : State) (id fuel : Nat) : State :=
  match fuel with
  | 0 => s
  | fuel + 1 =>
    match s.conv id with
    | none => s
    | some c =>
      match c.outq[c.nextMsg]? with
      | none => s
      | some m =>
        if c.st ≠ .opn || c.credit ≤ c.flight.length then s
        else
          let f := s.dataFrame c m c.nextOff
          let o := c.nextOff + frameRoom c.kind
          let done := m.data.length ≤ o
          let s := s.tx c.port f
          (s.modConv id fun c => { c with
            flight := c.flight ++ [{ uid := m.uid, f := f }], seq := seqAdd c.seq 1,
            nextMsg := if done then c.nextMsg + 1 else c.nextMsg, nextOff := if done then 0 else o }).pumpLoop id fuel

/-- Send CLOSE once every frame is acknowledged (R291). -/
def State.tryClose (s : State) (id : Nat) : State :=
  match s.conv id with
  | some c =>
    if c.closeReq && c.st = .opn && c.flight.isEmpty && c.outq.isEmpty then
      (s.modConv id fun c => { c with st := .closing, sentOpens := 1 }).tx c.port
        { s.convFrame c tyClose with seq := c.seq }
    else s
  | none => s

def State.pump (s : State) (id : Nat) : State := (s.pumpLoop id 64).tryClose id

/-- Queue a message on a conversation that takes new messages. -/
def State.sendOn (s : State) (id : Nat) (m : OutMsg) : State :=
  match s.conv id with
  | some c =>
    if c.closeReq || c.st = .closed then s
    else (s.modConv id fun c => { c with outq := c.outq ++ [{ m with uid := c.nextUid }], nextUid := c.nextUid + 1 }).pump id
  | none => s

/-- Queue a message on the open initiator conversation of a kind to a peer, on whichever port it runs. -/
def State.sendMsg (s : State) (kind conv peer : Nat) (m : OutMsg) : State :=
  match s.links.convs.find? fun c => c.kind = kind && c.conv = conv && c.peer = peer && c.initiator with
  | some c => s.sendOn c.id m
  | none => s

/-- A message whose payload met a parity error is not sent (R278). -/
def State.abandonSend (s : State) (q kind conv msg : Nat) : State :=
  s.fault (pgPort q) 26 msg (portInfo 6 0 conv kind)

/-- Requeue what is not known complete, and reopen with a new epoch (R291). -/
def State.reopen (s : State) (id : Nat) : State :=
  match s.conv id with
  | none => s
  | some c =>
    match s.newEpoch c.epoch with
    | none =>
      -- the request for an epoch waits until RNG_OK returns
      if s.links.waitEpoch.contains id then s
      else { s with links := { s.links with waitEpoch := s.links.waitEpoch ++ [id] } }
    | some (e, s) =>
      let s := s.modConv id fun c => { c with
        st := .opening, epoch := e, peerEpoch := 0, seq := 0, flight := [], nextMsg := 0, nextOff := 0,
        sentOpens := 1, silences := 0, credit := 0 }
      s.tx c.port { s.convFrame { c with epoch := e, peerEpoch := 0 } tyOpen with seq := 0 }

/-- The initiator enters SILENT. -/
def State.goSilent (s : State) (id : Nat) (ev : Option Nat) : State :=
  match s.conv id with
  | none => s
  | some c =>
    let s := s.modConv id fun c => { c with st := .silent, silences := 0 }
    match ev with
    | some e => s.raise (pgPort c.port) e
    | none => s

/-- SILENT, raising PARTNER_SILENT; a CONT conversation is the pair's watch. -/
def State.partnerSilent (s : State) (id : Nat) : State :=
  let s := s.goSilent id (some 14)
  match s.conv id with
  | some c =>
    -- R330: CONT is the pair's watch
    if c.kind = 3 && c.initiator && s.twin.role = .principal then s.raise pgTwin 20
    else if c.kind = 3 && !c.initiator && s.twin.role = .double && s.twin.sense then s.raise pgTwin 19
    else s
  | none => s

/-- Resend one frame of the flight, rebuilt with REXMIT (R289). -/
def State.resend (s : State) (c : Conv) (x : OutFrame) : State :=
  let s := s.modConv c.id fun c => { c with flight := c.flight.map fun y =>
    if y.f.seq = x.f.seq then { y with resent := y.resent + 1, resentAt := some s.now } else y }
  (s.count (pgPort c.port) 0x78 1).tx c.port { x.f with flags := x.f.flags ||| 4 }

/-! ### Receiving: keys (R274–R277) -/

/-- Microseconds in a timer register. -/
def State.timerUs (s : State) (q off lo w : Nat) : Nat := field (s.fo (pgPort q) off) lo w

/-- SILENCE in the model's time unit. -/
def State.silenceT (s : State) (q : Nat) : Nat := s.timerUs q 0x54 0 16 * tUs
def State.rtoT (s : State) (q : Nat) : Nat := s.timerUs q 0x4C 0 10 * tUs

/-- A failed ICV (R277); a rehearsal's drop is tagged (R405). -/
def State.macFail (s : State) (q : Nat) (reh : Bool) : State :=
  let s := (s.count (pgPort q) 0x88 1).modPort q fun t => { t with
    macFails := s.now :: t.macFails.filter fun u => decide (s.now < u + 1000 * tUs) }
  let s := if reh then s.raiseWith (pgPort q) evRehearsal true false else s
  s.raiseWith (pgPort q) 10 reh false

/-- Is a packet number inside the window and not yet seen (R274)? -/
def RxKey.accepts (k : RxKey) (pn : Nat) : Bool := decide (k.top < pn + 64) && !(k.seen.contains pn)

/-- A frame authenticates under the key of its AN: that key becomes the active one (R276). -/
def State.authenticated (s : State) (q an pn : Nat) : State :=
  let s := s.modPort q fun t =>
    let keys := t.keys.filter fun k => k.an = an
    let top (k : RxKey) : Nat := max k.top pn
    { t with peer := match keys with | k :: _ => k.src | [] => t.peer
             keys := keys.map fun k => { k with
               active := true, last := s.now, top := top k
               seen := (pn :: k.seen).filter fun n => decide (top k < n + 64) } }
  s.exposeOn q

/-- The MACsec half of a receipt: the protocol frame, or none when it is dropped. -/
def State.macsec (s : State) (r : RxFrame) : Option Frame × State :=
  let q := r.port.val
  let t := s.port q
  if !t.opened || !t.linkUp then (none, s)
  else if 0 < t.dropNext && r.f.typ = tyData then
    -- FRAME_DROP acts; a frame that fails by itself is the real fault (R403, R406)
    let s := s.modPort q fun t => { t with dropNext := t.dropNext - 1, dropFirst := false }
    let s := if t.dropFirst then s.injectOutcome t.dropEntry 3 (if r.icvOk then 1 else 3) else s
    (none, s.macFail q r.icvOk)
  else
    match t.keys.find? fun k => k.an = r.an.val with
    | none => (none, s.macFail q false)
    | some k =>
      if !r.icvOk then (none, s.macFail q false)
      else if !k.accepts r.pn then (none, s.count (pgPort q) 0x8C 1)
      else
        let s := (s.authenticated q r.an.val r.pn).count (pgPort q) 0x74 1
        -- the codewords that FEC corrected on the way are free
        let s := ({ s with fresh := s.fresh + 1 } : State).count (pgPort q) 0xAC (Config.freeNat s.fresh)
        -- R25, R283: the continuity port takes frames of the twin only
        if q = 8 && !s.isTwin r.f.src then (none, s.count (pgPort q) 0x90 1)
        else (some r.f, s)

/-- A received frame of a type: MACsec, then the header check, then its meaning. -/
def State.receive (s : State) (r : RxFrame) (ty : Nat) (g : State → Frame → State) : State :=
  match (s.begin.at r.inst).macsec r with
  | (none, s) => s
  | (some f, s) => if f.formed ty then g s f else s.protoErr r.port.val f

/-! ### Ports' own steps (R269, R270, R275–R277) -/

def execPortLinkUp (q : Fin 9) (s : State) : Out :=
  let s := s.begin
  let t := s.port q.val
  .next (if !t.opened || t.linkUp || !s.pageOn (pgPort q.val) then s
    else ((s.modPort q.val fun t => { t with linkUp := true }).raise (pgPort q.val) 9).announce q.val)

def execPortLinkDown (q : Fin 9) (s : State) : Out := .next (s.begin.linkLost q.val)

/-- A clear salt frame (R275, R276). -/
def execSalt (f : SaltFrame) (s : State) : Out :=
  let s := s.begin.at f.inst
  let q := f.port.val
  let t := s.port q
  .next (if !t.opened || !t.linkUp then s
    else if q = 8 && !s.isTwin f.src then s.count (pgPort q) 0x90 1
    else
      let new : RxKey := { an := f.an.val, salt := f.salt % 2 ^ 128, src := f.src, last := s.now }
      match t.keys.find? fun k => k.an = f.an.val with
      | some k =>
        if k.salt = new.salt then s
        else if k.active && decide (s.now < k.last + s.silenceT q) then s
        else (s.modPort q fun t => { t with keys := t.keys.map fun k => if k.an = f.an.val then new else k }).exposeOn q
      | none => (s.modPort q fun t => { t with keys := t.keys ++ [new] }).exposeOn q)

def execSaltAnnounce (q : Fin 9) (s : State) : Out := .next (s.begin.announce q.val)

def execMacStorm (q : Fin 9) (s : State) : Out :=
  let s := s.begin
  .next (if s.rdn (pgPort q.val) 0x68 < (s.port q.val).macFails.length then
      (s.modPort q.val fun t => { t with macFails := [] }).raise (pgPort q.val) 11
    else s)

def execDroppedFrame (q : Fin 9) (r : DropReason) (s : State) : Out :=
  let s := s.begin
  let pg := pgPort q.val
  .next (if !(s.port q.val).opened || !(s.port q.val).linkUp then s
    else match r with
      | .vlan | .etherType | .address | .clearType | .foreignTwin => s.count pg 0x90 1
      | .badFcs => s.count pg 0xB0 1
      | .malformed => (s.count pg 0x98 1).fault pg 25 0 (portInfo 7 0 0 0))

/-! ### Matching (R284) -/

/-- A frame is matching: PEER_EPOCH is the own epoch, and EPOCH the recorded one. -/
def Conv.matches (c : Conv) (f : Frame) : Bool :=
  f.peerEpoch = c.epoch && (c.peerEpoch = 0 || f.epoch = c.peerEpoch)

/-- A RESET without state carries EPOCH 0 (R280). -/
def Conv.matchesReset (c : Conv) (f : Frame) : Bool :=
  f.peerEpoch = c.epoch && (c.peerEpoch = 0 || f.epoch = 0 || f.epoch = c.peerEpoch)

def State.stale (s : State) (q : Nat) : State := (s.count (pgPort q) 0x80 1).raise (pgPort q) 12

/-- A matching frame restarts the silence timer. -/
def State.heard (s : State) (id : Nat) : State := s.modConv id fun c => { c with silences := 0 }

/-! ### The initiator's frames (R291) -/

/-- A frame to the initiator: with no conversation, CLOSED answers NO_STATE; a responder's conversation raises
PROTO_ERR. -/
def State.toInitiator (s : State) (q : Nat) (f : Frame) (g : State → Conv → State) : State :=
  match s.findConv q f.kind f.conv f.src true with
  | some c => g s c
  | none =>
    if (s.findConv q f.kind f.conv f.src false).isSome then s.protoErr q f
    else if f.typ = tyReset then s
    else s.sendReset q f 0 1

def execOpenAck (f : RxFrame) (s : State) : Out :=
  let q := f.port.val
  .next (s.receive f tyOpenAck fun s f => s.toInitiator q f fun s c =>
    if !c.matches f then s.stale q
    else
      let s := s.heard c.id
      match c.st with
      | .opening =>
        (s.modConv c.id fun c => { c with st := .opn, peerEpoch := f.epoch, credit := f.credit }).pump c.id
      | .opn | .closing | .silent => s.count (pgPort q) 0x7C 1
      | .closed => s)

/-- Is the highest frame that a SACK covers, or ACK itself, beyond what has been sent? -/
def ackBeyond (c : Conv) (f : Frame) : Bool :=
  decide (0 < serial f.ack c.seq) ||
  (List.range 64).any fun i => f.sack.testBit i && decide (0 ≤ serial (seqAdd f.ack (1 + i)) c.seq)

/-- Is a SEQ covered by the SACK? -/
def sackHas (f : Frame) (seq : Nat) : Bool :=
  let d := serial seq f.ack - 1
  decide (0 ≤ d) && decide (d < 64) && f.sack.testBit d.toNat

/-- Messages of which no frame is left to acknowledge leave the queue. -/
def Conv.release (c : Conv) (f : Frame) : Conv :=
  let flight := (c.flight.filter fun x => decide (0 ≤ serial x.f.seq f.ack)).map fun x =>
    if sackHas f x.f.seq then { x with sacked := true } else x
  let sent := c.outq.take c.nextMsg
  let rest := c.outq.drop c.nextMsg
  let keep := sent.filter fun m => flight.any fun x => x.uid = m.uid
  { c with flight := flight, outq := keep ++ rest, nextMsg := keep.length, credit := f.credit }

/-- Holes: a frame with a SACKed frame above it, not resent less than RTO ago (R289). -/
def State.resendHoles (s : State) (id : Nat) : State :=
  match s.conv id with
  | none => s
  | some c =>
    let rto := s.rtoT c.port
    c.flight.foldl (fun s x =>
      let hole := !x.sacked && c.flight.any fun y => y.sacked && decide (0 < serial y.f.seq x.f.seq)
      let early := match x.resentAt with | some t => decide (s.now < t + rto) | none => false
      if hole && !early then s.resend c x else s) s

/-- A continuity message N is complete at the partner: MSG_LAST_DONE counts from slate N+1. -/
def State.contDone (s : State) (n : Nat) : State :=
  let start := s.clap.last - (s.clap.num - (n + 1)) * s.periodUs * tUs
  let ns := min ((s.now - start) / tNs) (2 ^ 25 - 1)
  (s.wr pgCont 0x10C (word ns)).countMax pgCont 0x110 ns

/-- A PARK message of some bytes is complete (CKPT_DONE, CKPT_BYTES). -/
def State.ckptDone (s : State) (bytes : Nat) : State := (s.count pgCont 0x11C 1).count pgCont 0x120 (ceilDiv bytes 4096)

/-- A message that the partner has whole. -/
def State.msgAcked (s : State) (kind : Nat) (m : OutMsg) : State :=
  if kind = 3 then s.contDone m.msg else if kind = 6 then s.ckptDone m.data.length else s

/-- A matching ACK in OPEN. -/
def State.takeAck (s : State) (q : Nat) (c : Conv) (f : Frame) : State :=
  if ackBeyond c f then s.protoErr q f
  else
    let after := c.release f
    let gone := c.outq.filter fun m => !(after.outq.any fun x => x.uid = m.uid)
    let s := gone.foldl (fun s m => s.msgAcked c.kind m) s
    ((s.modConv c.id fun c => c.release f).resendHoles c.id).pump c.id

def execAck (f : RxFrame) (s : State) : Out :=
  let q := f.port.val
  .next (s.receive f tyAck fun s f => s.toInitiator q f fun s c =>
    if !c.matches f then s.stale q
    else
      let s := s.heard c.id
      match c.st with
      | .opn => s.takeAck q c f
      | .silent => ((s.modConv c.id fun c => { c with st := .opn }).raise (pgPort q) 15).takeAck q c f
      | .opening | .closing | .closed => s)

def execCloseAck (f : RxFrame) (s : State) : Out :=
  let q := f.port.val
  .next (s.receive f tyCloseAck fun s f => s.toInitiator q f fun s c =>
    if !c.matches f then s.stale q
    else match c.st with
      | .closing => s.dropConv c.id
      | .opening | .opn | .silent | .closed => s.heard c.id)

def execReset (f : RxFrame) (s : State) : Out :=
  let q := f.port.val
  .next (s.receive f tyReset fun s f => s.toInitiator q f fun s c =>
    if !c.matchesReset f then s.stale q
    else
      let s := (s.heard c.id).count (pgPort q) 0x94 1
      match c.st with
      | .opening => s.goSilent c.id (some 16)
      | .opn => (s.raise (pgPort q) 13).reopen c.id
      | .closing => s.dropConv c.id
      | .silent | .closed => s)

/-! ### The responder (R283, R286, R287, R292) -/

/-- Is the module the lead of its group, or the lead's twin? -/
def State.leadId (s : State) : Nat := field (s.fo pgGlobal 0x4C) 0 14
/-- A module that works alone is its own lead (R27).  In a group, LEAD_ID tells: the spec gives GROUP_CFG.LEAD no effect, and
the model gives it none where the two disagree (DESIGN CHOICE, log entry 85). -/
def State.isLead (s : State) : Bool := decide (s.groupSize ≤ 1) || s.moduleId = s.leadId
def State.leadPair (s : State) : Bool := s.isLead || (s.paired && s.partnerId = s.leadId)

/-- PORT_CTRL bits in force. -/
def State.portCtl (s : State) (q b : Nat) : Bool := bit (s.fo (pgPort q) 0x40) b

/-- Does the configuration admit a kind and initiator (R283)?  none, or the RESET reason. -/
def State.openReason (s : State) (q : Nat) (f : Frame) : Option Nat :=
  let twin := s.isTwin f.src
  let bad := some 2
  if !s.portCtl q 0 then some 5
  else if f.kind = 1 then
    -- an initiator of TAKE is a frame grabber or the twin (R273, R282); the twin's answers come on the alternate port too (R302)
    if q = 8 then (if twin then none else bad)
    else if !s.portCtl q 3 && !(s.portCtl q 6 && twin) then bad
    else if f.src < 0x4000 && !twin then some 3 else none
  else if f.kind = 4 then
    if q = 8 || !s.portCtl q 4 then bad
    else if f.conv = 0 then (if s.leadPair then none else bad)
    else if f.conv = 1 then (if f.src = s.leadId || s.clap.leadTwin = some f.src then none else some 3)
    else bad
  else if f.kind = 3 then (if q ≠ 8 then bad else if twin then none else some 3)
  else if f.kind = 5 || f.kind = 6 then
    if q = 8 || s.portCtl q 6 then (if twin then none else some 3) else bad
  else bad

/-- SACK of the frames held above ACK. -/
def Conv.sackBits (c : Conv) : Nat :=
  (List.range 64).foldl (fun a i => a + b2n (c.held.any fun f => f.seq = seqAdd c.seq (1 + i)) * 2 ^ i) 0

/-- Send an ACK now (R286). -/
def State.sendAck (s : State) (id : Nat) : State :=
  match s.conv id with
  | none => s
  | some c =>
    (s.modConv id fun c => { c with unacked := 0 }).tx c.port
      { s.convFrame c tyAck with ack := c.seq, sack := c.sackBits, credit := s.creditOf c.port }

/-- A new or reopened responder conversation answers OPEN_ACK. -/
def State.sendOpenAck (s : State) (c : Conv) : State :=
  s.tx c.port { s.convFrame c tyOpenAck with credit := s.creditOf c.port }

def execOpenFrame (f : RxFrame) (s : State) : Out :=
  let q := f.port.val
  .next (s.receive f tyOpen fun s f =>
    match s.findConv q f.kind f.conv f.src false with
    | some c =>
      if c.peerEpoch = f.epoch then (if c.st = .opn then (s.heard c.id).sendOpenAck c else s)
      else
        match s.newEpoch c.epoch with
        | none => s
        | some (e, s) =>
          let c := { c with st := .opn, epoch := e, peerEpoch := f.epoch, seq := 0, held := [], cur := none,
                            unacked := 0, silences := 0 }
          ((s.raise (pgPort q) 13).modConv c.id fun _ => c).sendOpenAck c
    | none =>
      match s.openReason q f with
      | some r => s.sendReset q f 0 r
      | none =>
        if 256 ≤ (s.portConvs q).length then s.sendReset q f 0 4
        else
          match s.newEpoch (s.pastEpoch q f.kind f.conv f.src false) with
          | none => s
          | some (e, s) =>
            let c : Conv := { id := s.links.nextConv, port := q, kind := f.kind, conv := f.conv, peer := f.src, part := f.part,
                              initiator := false, st := .opn, epoch := e, peerEpoch := f.epoch }
            ((s.addConv c).sendOpenAck c).checkExposed q f.kind f.part)

/-- A frame to the responder: no conversation is LISTEN. -/
def State.toResponder (s : State) (q : Nat) (f : Frame) (listen : State → State) (g : State → Conv → State) : State :=
  match s.findConv q f.kind f.conv f.src false with
  | some c => g s c
  | none =>
    if (s.findConv q f.kind f.conv f.src true).isSome && (s.openReason q f).isSome then s.protoErr q f
    else listen s

/-- SILENT ends with a matching DATA or PROBE. -/
def State.wakeConv (s : State) (q : Nat) (c : Conv) : State :=
  if c.st = .silent then (s.modConv c.id fun c => { c with st := .opn }).raise (pgPort q) 15 else s

def execProbe (f : RxFrame) (s : State) : Out :=
  let q := f.port.val
  .next (s.receive f tyProbe fun s f => s.toResponder q f (fun s => s.sendReset q f 0 1) fun s c =>
    if !c.matches f then s.stale q
    else ((s.heard c.id).wakeConv q c).sendAck c.id)

def execClose (f : RxFrame) (s : State) : Out :=
  let q := f.port.val
  .next (s.receive f tyClose fun s f =>
    let answer (s : State) (own : Nat) : State :=
      s.tx q { typ := tyCloseAck, kind := f.kind, src := s.moduleId, dst := f.src, conv := f.conv, part := f.part,
               epoch := own, peerEpoch := f.epoch }
    s.toResponder q f (fun s => answer s 0) fun s c =>
      if !c.matches f then s.stale q
      else
        let s := s.heard c.id
        if c.st ≠ .opn then s
        else if f.seq = c.seq then (answer s c.epoch).dropConv c.id
        else s.sendAck c.id)

/-! ### Requests to open and close (R291, R301, R303, R304, R306–R308, R357) -/

/-- Is the continuity path on port q: the continuity port, or the alternate port while it is down (R304)? -/
def State.twinPath (s : State) (q : Nat) : Bool :=
  q = 8 || (s.portCtl q 6 && !(s.port 8).linkUp)

/-- Has the endpoint opened its MIX conversation 0 to this module (R324)? -/
def State.mixPeer (s : State) (q peer : Nat) : Bool :=
  match s.findConv q 4 0 peer false with
  | some c => c.st = .opn
  | none => false

/-- May the module initiate this conversation?  MIX conversation 0 is a member's, while a reel with WAY 1 is loaded (R308);
conversation 1 goes to an endpoint that has opened conversation 0 here (R324). -/
def State.mayOpen (s : State) (q kind conv peer part : Nat) : Bool :=
  let twin := s.isTwin peer
  match kind with
  | 1 => twin && (q = 8 || s.portCtl q 6)
  | 3 => twin && q = 8 && s.twin.role = .principal && conv = 0
  | 4 => q ≠ 8 && s.portCtl q 4 && ((conv = 0 && !s.leadPair && (s.sched.reels.any fun r => r.way = 1)
        && (peer = s.leadId || s.clap.leadTwin = some peer)) || (conv = 1 && s.leadPair && s.mixPeer q peer))
  | 5 => twin && s.twinPath q && conv = 0
  | 6 => twin && s.twinPath q && s.twin.role = .principal && conv = part
      && (part = 0 || (s.keyedHM q && (q = 8 || (s.port q).peer = s.partnerId)))
  | 7 => q ≠ 8 && s.portCtl q 5 && s.leadPair && conv = 0 && decide (0x4000 ≤ peer)
  | _ => false

def execConversationOpenRequest (q : Fin 9) (kind conv peer : Nat) (part : Fin 16) (s : State) : Out :=
  let s := s.begin
  let q := q.val
  let p := part.val
  .next (if !s.portCtl q 0 || !s.mayOpen q kind conv peer p || decide (256 ≤ (s.portConvs q).length) then s
    else match s.findConv q kind conv peer true with
      | some _ => s
      | none =>
        match s.newEpoch (s.pastEpoch q kind conv peer true) with
        | none => s
        | some (e, s) =>
          let c : Conv := { id := s.links.nextConv, port := q, kind := kind, conv := conv, peer := peer, part := p,
                            initiator := true, st := .opening, epoch := e, sentOpens := 1 }
          ((s.addConv c).tx q (s.convFrame c tyOpen)).checkExposed q kind p)

/-- Close as an initiator (R291). -/
def State.closeConv (s : State) (id : Nat) : State :=
  match s.conv id with
  | none => s
  | some c =>
    match c.st with
    | .opening | .silent | .closed => s.dropConv id
    | .opn => (s.modConv id fun c => { c with closeReq := true }).tryClose id
    | .closing => s

def execConversationCloseRequest (q : Fin 9) (kind conv peer : Nat) (s : State) : Out :=
  let s := s.begin
  .next (match s.findConv q.val kind conv peer true with
    | some c => s.closeConv c.id
    | none => s)

/-! ### Timers (R289–R292) -/

def State.openLimit (s : State) (q : Nat) : Nat := max 1 (s.timerUs q 0x5C 16 8)
def State.rexmitLimit (s : State) (q : Nat) : Nat := max 1 (s.timerUs q 0x5C 24 8)
def State.silenceLimit (s : State) (q : Nat) : Nat := max 1 (s.timerUs q 0x54 16 8)

/-- RTO of conversation i. -/
def execRto (i : Nat) (s : State) : Out :=
  let s := s.begin
  .next (match s.conv i with
    | none => s
    | some c =>
      let q := c.port
      if !c.initiator then s
      else match c.st with
        | .opening =>
          if c.sentOpens < s.openLimit q then
            (s.modConv i fun c => { c with sentOpens := c.sentOpens + 1 }).tx q (s.convFrame c tyOpen)
          else s.partnerSilent i
        | .closing =>
          if c.sentOpens < s.openLimit q then
            (s.modConv i fun c => { c with sentOpens := c.sentOpens + 1 }).tx q { s.convFrame c tyClose with seq := c.seq }
          else s.dropConv i
        | .opn =>
          let due := c.flight.filter fun x => !x.sacked
          if due.isEmpty then s
          else if due.any fun x => decide (s.rexmitLimit q ≤ x.resent) then s.partnerSilent i
          else due.foldl (fun s x => s.resend c x) s
        | .silent | .closed => s)

def execAckDelay (i : Nat) (s : State) : Out :=
  let s := s.begin
  .next (match s.conv i with
    | some c => if !c.initiator && c.st = .opn && decide (0 < c.unacked) then s.sendAck i else s
    | none => s)

/-- A PROBE carries the next SEQ. -/
def State.sendProbe (s : State) (c : Conv) : State := s.tx c.port { s.convFrame c tyProbe with seq := c.seq }

def execKeepalive (i : Nat) (s : State) : Out :=
  let s := s.begin
  .next (match s.conv i with
    | some c => if c.initiator && c.st = .opn then s.sendProbe c else s
    | none => s)

def execSilence (i : Nat) (s : State) : Out :=
  let s := s.begin
  .next (match s.conv i with
    | none => s
    | some c =>
      if c.st ≠ .opn then s
      else if c.silences + 1 < s.silenceLimit c.port then
        let s := s.modConv i fun c => { c with silences := c.silences + 1 }
        if c.initiator then s.sendProbe c else s
      else s.partnerSilent i)

def execOpenRetry (i : Nat) (s : State) : Out :=
  let s := s.begin
  .next (match s.conv i with
    | some c => if c.initiator && c.st = .silent then s.reopen i else s
    | none => s)

def execForget (i : Nat) (s : State) : Out :=
  let s := s.begin
  .next (match s.conv i with
    | some c => if !c.initiator && c.st = .silent then s.dropConv i else s
    | none => s)

end Sys2Proof.Machine
end

