-- ==== Sys2Proof/Machine/Clapper.lean ====
section
/-! DEFINITION. The Clapper: slate sources and their instants (R28–R32, R34), slate frames (R300) and the 1588 time
base (R271, R272).  Instants are in the model's time unit (log entry 2). -/
namespace Sys2Proof.Machine

/-- Period P and window half-width W in force. -/
def State.periodT (s : State) : Nat := s.periodUs * tUs
def State.winT (s : State) : Nat := s.fon pgClapper 0x48 * 10 * tNs

/-- 40 ns from a cause to its slate, and 2.5 ns of clock edge. -/
def lagT : Nat := 40 * tNs
def edgeT : Nat := 15

/-- SLATE_DELAY, applied while LEAD is 1. -/
def State.delayT (s : State) : Nat := if s.lead then s.fon pgClapper 0x74 * tUs else 0

/-- EDGE in force: falling. -/
def State.edgeFalling (s : State) : Bool := bit (s.fo pgClapper 0x40) 3

/-- The model instant of a 1588 time. -/
def State.instantOf (s : State) (ns : Nat) : Nat := s.ptp.mark + (ns - s.ptp.base) * tNs

/-! ### Configuration (R31) -/

/-- RUN goes from 0 to 1 with no slates being issued: the timer's first slate is due at once, after SLATE_DELAY on a lead
(R28). -/
def State.startRun (s : State) : State :=
  { s with clap := { s.clap with
      run := true, first := true, haveEdge := false, winTaken := false, nextHold := false, nextPred := false,
      nextTick := none, nextFrameHold := false, frameSent := false, misses := 0, lost := false,
      due := if s.src = 0 then some (s.now + s.delayT) else none } }

/-- RUN as CLAP_CTRL holds it takes force outside a slate. -/
def State.applyRun (s : State) : State :=
  let r := bit (s.fo pgClapper 0x40) 0
  if r && !s.clap.run then s.startRun
  else if !r && s.clap.run then { s with clap := { s.clap with run := false, due := none } }
  else s

/-- Offset of a Clapper register that R31 governs. -/
def clapOff : ClapReg → Nat
  | .ctrl => 0x40 | .period => 0x44 | .win => 0x48 | .delay => 0x74

/-- Does R31 refuse the value? -/
def State.clapRefuses (s : State) (r : ClapReg) (v : Word) : Bool :=
  let n := v.toNat
  match r with
  | .ctrl => s.classALoaded && !bit v 0
  | .period => s.classALoaded || decide (n < 250) || decide (20000 < n) || decide (5 * n < s.fon pgClapper 0x48)
  | .win => s.classALoaded || decide (5 * s.periodUs < n)
  | .delay => s.classALoaded || decide (100 < n)

/-- Carry out a write that has passed the gate. -/
def State.clapWrite (s : State) (r : ClapReg) (v : Word) : State :=
  if s.clapRefuses r v then s.raise pgClapper 14
  else
    let three := r = .ctrl && field v 1 2 = 3
    let s := s.raiseIf three pgClapper evReserved
    let s := s.wrSlate pgClapper (clapOff r) (if three then setField v 1 2 0 else v)
    if s.slatesOn then s else s.applyRun

def execClapperConfigWrite (r : ClapReg) (v : Word) (s : State) : Out :=
  .next (s.begin.gated pgClapper (clapOff r) v fun s w => s.clapWrite r w)

/-! ### Slate frames sent (R32, R299) -/

/-- Payload of a slate frame.  Its fields exist on the wire only, so they are big-endian by R9; R281 names the header,
the salt frame and the sub-headers only (DEDUCED, log entry 83). -/
def State.slatePayload (s : State) (tick ns : Nat) (hold pred : Bool) : Bytes :=
  beBytes 8 tick ++ beBytes 8 (ns / 1000000000) ++ beBytes 4 (ns % 1000000000) ++ beBytes 4 s.periodUs
  ++ beBytes 4 s.twin.takeEpoch ++ beBytes 2 s.partnerId ++ beBytes 2 (b2n hold + 2 * b2n pred)

/-- The lead that drives TAKE announces a slate on every cascade port with SLATE_TX (R299, R308). -/
def State.sendFrame (s : State) (tick ns : Nat) (hold pred : Bool) : State :=
  if !s.lead || !s.leadPair || !s.twin.drive then s
  else
    let f : Frame := { typ := tyDatagram, kind := 2, src := s.moduleId, dst := 0xFFFF, msg := tick,
                       payload := s.slatePayload tick ns hold pred }
    ((List.range 8).filter fun q => s.portCtl q 1).foldl (fun s q => s.tx q f) s

/-- Tick number of the slate that an edge or the timer decides (R28). -/
def State.tickAhead (s : State) : Nat := if s.clap.first then s.rd64 pgClapper 0x58 else (s.clap.num + 1) % 2 ^ 64

/-- The 1588 instant that the lead announces for the slate that is due. -/
def State.dueNs (s : State) : Nat := s.clock1588 (s.clap.due.getD s.now)

/-- The frame of the slate that has just been decided, SLATE_DELAY ahead of it (R28, R32). -/
def State.frameAhead (s : State) : State :=
  let s := s.sendFrame s.tickAhead s.dueNs s.clap.nextHold false
  { s with clap := { s.clap with frameSent := true } }

/-! ### CLAP edges (R29, R30) -/

/-- An edge that R29 ignores. -/
def State.clapEarly (s : State) : State := (s.count pgClapper 0x70 1).raise pgClapper 10

/-- An accepted edge: its slate follows by 40 ns.  SOURCE_RESTORED tells of an edge that ends a CLAP_LOST (R30). -/
def State.acceptEdge (s : State) (inst : Nat) : State :=
  let back := s.clap.lost
  let phase : Int := if s.clap.haveEdge then ((inst : Int) - s.clap.expect) / (edgeT : Int) else s.clap.phase
  let s := { s with clap := { s.clap with
    expect := inst, haveEdge := true, winTaken := true, locked := true, misses := 0, lost := false, phase := phase,
    due := some (inst + lagT + s.delayT) } }
  (s.raiseIf back pgClapper 13).frameAhead

def execClapEdge (inst : Nat) (falling : Bool) (s : State) : Out :=
  let s := s.begin.at inst
  .next (if !s.slatesOn || s.src ≠ 1 || falling != s.edgeFalling then s
    else if s.reh.clapSkip then
      let e := mget (fun _ => 0) s.reh.timeEntry 4
      let s := { s with reh := { s.reh with clapSkip := false } }
      (s.raiseWith pgClapper evRehearsal true false).injectOutcome e 4 1
    else if !s.clap.haveEdge then s.acceptEdge inst
    else if s.clap.winTaken || s.clap.due.isSome || decide (inst + s.winT < s.clap.expect) || decide (s.clap.expect + s.winT < inst)
    then s.clapEarly
    else s.acceptEdge inst)

/-- No edge by E(T) + W: the slate follows 40 ns later, as a holdover slate. -/
def execHoldoverSlate (inst : Nat) (s : State) : Out :=
  let s := s.begin.at inst
  .next (if !s.slatesOn || s.src ≠ 1 || !s.clap.haveEdge || s.clap.due.isSome || decide (inst < s.clap.expect + s.winT) then s
    else
      let s := { s with clap := { s.clap with
        due := some (s.clap.expect + s.winT + lagT + s.delayT), nextHold := true, misses := s.clap.misses + 1, locked := false } }
      ((s.raise pgClapper 8).count pgClapper 0x6C 1).frameAhead)

def execClapLost (s : State) : Out :=
  let s := s.begin
  .next (if s.slatesOn && s.src = 1 && !s.clap.lost && decide (s.missLimit ≤ s.clap.misses) then
      ({ s with clap := { s.clap with lost := true } } : State).raise pgClapper 9
    else s)

/-! ### Slate frames (R32, R300) -/

/-- 1588 time that a slate frame announces, in ns. -/
def frameNs (p : Bytes) : Nat := beAt p 8 8 % 2 ^ 48 * 1000000000 + beAt p 16 4

def State.slateConflict (s : State) (q : Nat) (f : Frame) : State := s.fault (pgPort q) 23 f.msg (portInfo 5 0 f.conv f.kind)

/-- Is a slate payload formed as R299 lays down? -/
def slateFormed (f : Frame) : Bool :=
  f.payload.length = 32 && beAt f.payload 0 8 = f.msg && decide (beAt f.payload 16 4 < 1000000000)
    && beAt f.payload 8 8 / 2 ^ 48 = 0 && beAt f.payload 30 2 / 4 = 0 && f.conv = 0

/-- The frame takes effect: it sets the next slate. -/
def State.acceptSlate (s : State) (q : Nat) (f : Frame) : State :=
  let p := f.payload
  let ns := frameNs p
  let epoch := beAt p 24 4
  let s := { s with clap := { s.clap with
    due := some (s.instantOf ns), nextTick := some f.msg, announced := ns, locked := true, misses := 0, lost := false
    accepted := some (f.msg, ns, beAt p 20 4, f.src, epoch), leadTwin := some (beAt p 28 2), frameEpoch := epoch
    nextFrameHold := (beAt p 30 2).testBit 0 } }
  let s := { s with twin := { s.twin with takeEpoch := max s.twin.takeEpoch epoch } }
  if beAt p 20 4 = s.periodUs then s else s.slateConflict q f

/-- A slate frame that authenticates. -/
def State.slateFrame (s : State) (q : Nat) (f : Frame) : State :=
  if f.kind ≠ 2 || !slateFormed f then s.protoErr q f
  else if !s.portCtl q 2 then s.count (pgPort q) 0x90 1
  else if !s.slatesOn || s.src ≠ 2 then s
  else if s.reh.slateSkip then
    let e := mget (fun _ => 0) s.reh.timeEntry 5
    let s := { s with reh := { s.reh with slateSkip := false } }
    (s.raiseWith pgClapper evRehearsal true false).injectOutcome e 5 1
  else
    let epoch := beAt f.payload 24 4
    let lead := f.src = s.leadId || s.clap.leadTwin = some f.src
    if !lead then s
    else if epoch < s.clap.frameEpoch then s.stale q
    else
      let dup : Bool := match s.clap.accepted with | some a => a.1 = f.msg | none => false
      if dup then
        let s := s.count (pgPort q) 0xA8 1
        match s.clap.accepted with
        | some (_, ns, period, src, e) =>
          if e = epoch && !(frameNs f.payload = ns && beAt f.payload 20 4 = period && f.src = src) then s.slateConflict q f else s
        | none => s
      else if (!s.clap.first && decide (f.msg ≤ s.clap.num)) || s.clap.due.isSome then s
      else s.acceptSlate q f

def execSlateFrame (inst : Nat) (f : RxFrame) (s : State) : Out :=
  .next ((s.at inst).receive f tyDatagram fun s g => s.slateFrame f.port.val g)

/-- Predicted 1588 instant of the next slate. -/
def State.predictedNs (s : State) : Nat := s.clap.announced + s.periodUs * 1000

/-- No frame has arrived 2 µs before the predicted instant. -/
def execPredictedSlate (inst : Nat) (s : State) : Out :=
  let s := s.begin.at inst
  let p := s.instantOf s.predictedNs
  .next (if !s.slatesOn || s.src ≠ 2 || s.clap.first || s.clap.due.isSome || decide (inst + 2 * tUs < p) then s
    else
      let s := { s with clap := { s.clap with
        due := some p, nextPred := true, announced := s.predictedNs, misses := s.clap.misses + 1, locked := false } }
      (s.raise pgClapper 11).count pgClapper 0x6C 1)

def execSlateFrameLost (s : State) : Out :=
  let s := s.begin
  .next (if s.slatesOn && s.src = 2 && !s.clap.lost && decide (s.missLimit ≤ s.clap.misses) then
      ({ s with clap := { s.clap with lost := true } } : State).raise pgClapper 12
    else s)

/-! ### At a slate (R28, R34) -/

/-- Is a slate due at this instant, within 2.5 ns (R28)? -/
def State.slateDue (s : State) (inst : Nat) : Bool :=
  s.slatesOn &&
  match s.clap.due with
  | none => false
  | some d => decide (d ≤ inst + edgeT) && decide (inst ≤ d + edgeT)

/-- The tick number advances; flags, reference instant and seconds of the new slate. -/
def State.clapAdvance (s : State) (inst : Nat) : State :=
  let c := s.clap
  let num := if s.src = 2 then c.nextTick.getD (c.num + 1) else s.tickAhead
  let ts := s.clock1588 inst
  let off := c.offset + c.stepBack
  -- T(n) never falls (R34)
  let sec := max c.sec ((ts + off) / 1000000000)
  let due := c.due.getD inst
  let s := { s with clap := { c with
    num := num, first := false, ever := true, hold := c.nextHold, pred := c.nextPred, frameHold := c.nextFrameHold && !c.nextPred
    nextHold := false, nextPred := false, nextTick := none, nextFrameHold := false, last := inst
    ref := if c.nextHold then due - s.winT else if c.nextPred then due else inst
    ts := ts, offset := off, stepBack := 0, sec := sec, prevSec := c.sec
    -- the timer's own instant of the slate that opens a run
    expect := if c.first && s.src = 0 then inst - s.delayT else c.expect } }
  { s with power := { s.power with evalDue := s.power.evalDue || (c.ever && decide (c.sec < sec)) } }

/-- The instant of the next slate, once due registers have taken force; `src` is the source that gave this one. -/
def State.clapNext (s : State) (src : Nat) : State :=
  let run := bit (s.fo pgClapper 0x40) 0
  let c := s.clap
  let same := decide (src = s.src)
  let e := (if same then c.expect else c.last) + s.periodT
  if !run then { s with clap := { c with run := false, due := none } }
  else
    let announced := if same then c.announced else c.ts
    { s with clap := { c with
        due := if s.src = 0 then some (if same then e + s.delayT else e) else none
        expect := if s.src = 0 && !same then e - s.delayT else e
        announced := announced, haveEdge := true, winTaken := false
        misses := if same then c.misses else 0, lost := c.lost && same } }

/-! ### The 1588 time base (R271, R272) -/

/-- Is PTP enabled on the port, in the message's domain? -/
def State.ptpOn (s : State) (q domain : Nat) : Bool :=
  let c := s.rd (pgPort q) 0x6C
  bit c 0 && field c 8 8 = domain && (s.port q).opened && (s.port q).linkUp

/-- Set the clock at the current instant. -/
def State.setClock (s : State) (ns : Nat) : State := { s with ptp := { s.ptp with base := ns, mark := s.now } }

def State.ptpUnlock (s : State) : State :=
  let was := s.ptp.locked
  let s := { s with ptp := { s.ptp with locked := false, good := 0 } }
  match s.ptp.port with
  | some q => s.raiseIf was (pgPort q) 24
  | none => s

/-- The clock follows the transmitter while it is locked: the measured offset comes off it (R34, R272). -/
def State.followClock (s : State) (off : Int) : State := s.setClock ((s.clock1588 s.now : Int) - off).toNat

/-- PTP_SYNC.  R309 gives the continuity port a PTP_CFG of its own, so a Sync there is taken whatever its origin; R25 and R283
speak of the twin's protocol traffic (DESIGN CHOICE, log entry 84). -/
def execPtpSync (inst : Nat) (m : SyncMsg) (s : State) : Out :=
  let s := s.begin.at inst
  let q := m.port.val
  .next (if !s.ptpOn q m.domain || s.ptp.port ≠ some q then s
    else
      let s := { s with ptp := { s.ptp with offset := m.offset } }
      let near := decide (-20 ≤ m.offset) && decide (m.offset ≤ 20)
      let far := decide (m.offset < -50) || decide (50 < m.offset)
      if s.ptp.locked then (if far then s.ptpUnlock else s.followClock m.offset)
      else if !near then { s with ptp := { s.ptp with good := 0 } }
      else if s.ptp.good + 1 < 16 then { s with ptp := { s.ptp with good := s.ptp.good + 1 } }
      else
        -- the lock: a step back is made up in OFFSET at the next slate
        let clock := s.clock1588 s.now
        let s := { s with ptp := { s.ptp with locked := true, good := 16 } }
        let s := { s with clap := { s.clap with stepBack := s.clap.stepBack + (clock - m.time) } }
        s.setClock m.time)

/-- No Sync for three announced intervals. -/
def execPtpLost (s : State) : Out :=
  let s := s.begin
  .next (if s.ptp.locked then s.ptpUnlock else s)

/-- The best rank among the ports that PTP runs on; the lower port on a tie. -/
def State.ptpSelect (s : State) : State :=
  let best := s.ptp.ranks.foldl (fun (b : Option (Nat × Nat)) (e : Nat × Nat) =>
    if !bit (s.rd (pgPort e.1) 0x6C) 0 then b
    else match b with
      | some (_, r) => if e.2 < r then some e else b
      | none => some e) none
  let port := best.map fun e => e.1
  if s.ptp.port = port then s else { s with ptp := { s.ptp with port := port, good := 0 } }

def execPtpAnnounce (m : AnnounceMsg) (s : State) : Out :=
  let s := s.begin
  let q := m.port.val
  .next (if !s.ptpOn q m.domain then s
    else
      -- a rank is held one above its value, so that an unheard port holds none
      ({ s with ptp := { s.ptp with ranks := mset (fun _ => 0) s.ptp.ranks q (m.rank + 1)
                                    pathDelay := mset (fun _ => 0) s.ptp.pathDelay q m.pathDelay } } : State).ptpSelect)

end Sys2Proof.Machine
end

