-- ==== Sys2Proof/Machine/Ledger.lean ====
section
/-! DEFINITION. Ledgers: terms, flags, records and the close (R60–R76). -/
namespace Sys2Proof.Machine

/-- A ledger (R60): X × 2^anchor and four flags. -/
structure Led where
  x : Int := 0
  anchor : Int := 0
  nan : Bool := false
  pinf : Bool := false
  ninf : Bool := false
  povf : Bool := false
  deriving DecidableEq, Repr

/-- Top of the window, 2^127 (R60). -/
def two127 : Int := ((2 ^ 127 : Nat) : Int)
def two159 : Int := ((2 ^ 159 : Nat) : Int)

/-- Add a finite term m × 2^e: floor to the anchor, clamp on product overflow (R61, R62). -/
def Led.addTerm (l : Led) (m e : Int) : Led :=
  let t := floorShift m (e - l.anchor)
  if two127 ≤ t ∨ t ≤ -two127 then
    { l with x := l.x + (if t < 0 then -(two127 - 1) else two127 - 1), povf := true }
  else { l with x := l.x + t }

/-- A bias, a residual element or a vector-sum element (R64, R76). -/
def Led.addNum (l : Led) (v : NumVal) : Led :=
  match v with
  | .nan => { l with nan := true }
  | .inf false => { l with pinf := true }
  | .inf true => { l with ninf := true }
  | .fin m e => l.addTerm m e

/-- A product of two elements (R61, R65). -/
def Led.addProduct (l : Led) (a b : NumVal) : Led :=
  match a, b with
  | .nan, _ => { l with nan := true }
  | _, .nan => { l with nan := true }
  | .inf s, .inf t => if s == t then { l with pinf := true } else { l with ninf := true }
  | .inf s, .fin m _ =>
    if m = 0 then { l with nan := true }
    else if s == decide (m < 0) then { l with pinf := true } else { l with ninf := true }
  | .fin m _, .inf s =>
    if m = 0 then { l with nan := true }
    else if s == decide (m < 0) then { l with pinf := true } else { l with ninf := true }
  | .fin m e, .fin n f => l.addTerm (m * n) (e + f)

/-- Combine a partial ledger of the same anchor (R64). -/
def Led.join (l p : Led) : Led :=
  { l with x := l.x + p.x, nan := l.nan || p.nan, pinf := l.pinf || p.pinf, ninf := l.ninf || p.ninf,
           povf := l.povf || p.povf }

/-- A dot product into a ledger. -/
def Led.dot (l : Led) (as bs : List NumVal) : Led :=
  (as.zip bs).foldl (fun l p => l.addProduct p.1 p.2) l

/-- The 24-byte ledger record (R66). -/
def Led.bytes (l : Led) : Bytes :=
  leBytes 20 (lowBits 160 l.x) ++ leBytes 2 (lowBits 12 l.anchor)
  ++ leBytes 1 (b2n l.nan + 2 * b2n l.pinf + 4 * b2n l.ninf + 8 * b2n l.povf) ++ leBytes 1 0

/-- Read a ledger record: none when a reserved bit is set (R66). -/
def Led.ofBytes (b : Bytes) : Option Led :=
  let a := leAt b 20 2
  let f := leAt b 22 1
  if 4096 ≤ a ∨ 16 ≤ f ∨ leAt b 23 1 ≠ 0 then none
  else some { x := sext 160 (leAt b 0 20), anchor := sext 12 a, nan := f.testBit 0, pinf := f.testBit 1,
              ninf := f.testBit 2, povf := f.testBit 3 }

/-- RESCALE(k) (R74). -/
def Led.rescale (l : Led) (k : Nat) : Led := { l with x := l.x / ((2 ^ k : Nat) : Int) }

/-- Does a RESCALE drop a 1 bit (R129)? -/
def Led.lossy (l : Led) (k : Nat) : Bool := decide (l.x % ((2 ^ k : Nat) : Int) ≠ 0)

/-- REANCHOR(a) (R74). -/
def Led.reanchor (l : Led) (a : Int) : Led :=
  if l.anchor ≤ a then { l with x := floorShift l.x (l.anchor - a), anchor := a }
  else
    let x := l.x * ((2 ^ (l.anchor - a).toNat : Nat) : Int)
    if two159 ≤ x then { l with x := two159 - 1, anchor := a, povf := true }
    else if x < -two159 then { l with x := -two159, anchor := a, povf := true }
    else { l with x := x, anchor := a }

/-- Close fields of a descriptor (R70). -/
structure CloseCfg where
  mult : Nat := 1
  shift : Nat := 0
  rnd : Nat := 0
  sat : Bool := true
  zp : Int := 0
  fmt : Nat := 0xC
  deriving DecidableEq, Repr

/-- Window judgement of a ledger: the clamped X and whether the window overflowed (R68). -/
def Led.window (l : Led) : Int × Bool :=
  if two127 ≤ l.x then (two127 - 1, true) else if l.x < -two127 then (-two127, true) else (l.x, false)

/-- Steps 1 to 3 of the close: the exact value, window overflow, product overflow (R68, R70). -/
def Led.value (l : Led) (mult shift : Nat) : NumVal × Bool × Bool :=
  if l.nan || (l.pinf && l.ninf) then (.nan, false, l.povf)
  else if l.pinf then (.inf false, false, l.povf)
  else if l.ninf then (.inf true, false, l.povf)
  else
    let (x, w) := l.window
    (.fin (x * (mult : Int)) (l.anchor - (shift : Int)), w, l.povf)

/-- What a close yields: output code, output saturation, window overflow, product overflow. -/
structure Closed where
  code : Nat
  sat : Bool := false
  win : Bool := false
  prod : Bool := false
  deriving DecidableEq, Repr

/-- Close to a format that is neither MX nor LEDGER (R70–R72). -/
def Led.close (l : Led) (c : CloseCfg) : Closed :=
  let (v, w, p) := l.value c.mult c.shift
  let (code, s) := fitOut c.fmt c.rnd c.sat c.zp v
  { code := code, sat := s, win := w, prod := p }

/-- Close 32 ledgers to one block of an MX format: scale byte and elements (R73). -/
def closeMx (ls : List Led) (c : CloseCfg) : Nat × List Closed :=
  let vs := ls.map fun l => l.value c.mult c.shift
  let (sc, es) := fitMx c.fmt c.rnd c.sat (vs.map fun v => v.1)
  (sc, (es.zip vs).map fun p => { code := p.1.1, sat := p.1.2, win := p.2.2.1, prod := p.2.2.2 })

end Sys2Proof.Machine
end

