-- ==== Sys2Proof/Machine/Vector.lean ====
section
/-! DEFINITION. The vector units: binary32 functions, each correctly rounded with ties to even (R75, R76).
A value is computed between two dyadic bounds that lie closer together than any rounding boundary; where the
two bounds round alike, that is the correctly rounded result. -/
namespace Sys2Proof.Machine

def f32 : FloatFmt := { eb := 8, mb := 23, bias := 127, maxM := 16777215, maxE := 104, hasInf := true, nanCode := some 0x7FC00000 }

def fNan : Nat := 0x7FC00000
def fNeg (w : Nat) : Bool := w.testBit 31
def fMag (w : Nat) : Nat := w % 2 ^ 31
def fIsNan (w : Nat) : Bool := decide (0x7F800000 < fMag w)
def fIsInf (w : Nat) : Bool := fMag w = 0x7F800000
def fIsZero (w : Nat) : Bool := fMag w = 0
def fInf (neg : Bool) : Nat := 0x7F800000 + b2n neg * 2 ^ 31
def fZero (neg : Bool) : Nat := b2n neg * 2 ^ 31

/-- Finite value of a code, as m × 2^e. -/
def fVal (w : Nat) : Int × Int :=
  match decodeFloat f32 w with
  | .fin m e => (m, e)
  | _ => (0, 0)

/-- Round m × 2^e to binary32, ties to even. -/
def fRound (m e : Int) : Nat := (roundFloat f32 0 false m e).1

/-- The sum of two dyadics. -/
def dyAdd (a b : Int × Int) : Int × Int :=
  let e := min a.2 b.2
  (a.1 * (2 ^ (a.2 - e).toNat : Nat) + b.1 * (2 ^ (b.2 - e).toNat : Nat), e)

/-- x × y + z, rounded once; an exact zero takes the sign rule of IEEE 754. -/
def fFma (x y z : Nat) : Nat :=
  if fIsNan x || fIsNan y || fIsNan z then fNan
  else
    let pneg := fNeg x != fNeg y
    if fIsInf x || fIsInf y then
      if fIsZero x || fIsZero y then fNan
      else if fIsInf z && (fNeg z != pneg) then fNan else fInf pneg
    else if fIsInf z then z
    else
      let a := fVal x
      let b := fVal y
      let s := dyAdd (a.1 * b.1, a.2 + b.2) (fVal z)
      if s.1 = 0 then
        if (fIsZero x || fIsZero y) && fIsZero z && pneg && fNeg z then fZero true
        else fZero false
      else
        let r := fRound s.1 s.2
        if fMag r = 0 then fZero (decide (s.1 < 0)) else r

/-- Sign changes; a NaN operand gives the one NaN (R75). -/
def fNegate (x : Nat) : Nat := if fIsNan x then fNan else fMag x + b2n (!fNeg x) * 2 ^ 31
def fAbs (x : Nat) : Nat := if fIsNan x then fNan else fMag x
def fCopySign (x y : Nat) : Nat := if fIsNan x || fIsNan y then fNan else fMag x + b2n (fNeg y) * 2 ^ 31
def fSelect (c : Bool) (x y : Nat) : Nat := let v := if c then x else y; if fIsNan v then fNan else v

def fAdd (x y : Nat) : Nat :=
  if fIsNan x || fIsNan y then fNan
  else if fIsInf x then if fIsInf y && (fNeg x != fNeg y) then fNan else x
  else if fIsInf y then y
  else
    let s := dyAdd (fVal x) (fVal y)
    if s.1 = 0 then fZero (fNeg x && fNeg y && fIsZero x && fIsZero y) else fRound s.1 s.2

def fSub (x y : Nat) : Nat := if fIsNan y then fNan else fAdd x (fNegate y)

def fMul (x y : Nat) : Nat :=
  if fIsNan x || fIsNan y then fNan
  else
    let neg := fNeg x != fNeg y
    if fIsInf x || fIsInf y then (if fIsZero x || fIsZero y then fNan else fInf neg)
    else
      let a := fVal x
      let b := fVal y
      let r := fRound (a.1 * b.1) (a.2 + b.2)
      if fMag r = 0 then fZero neg else r

/-- |a| / |b| to 64 bits and a sticky bit. -/
def quot (a b : Nat) : Int × Int :=
  let k := 64 + Nat.log2 b + 1 - Nat.log2 a
  let n := a * 2 ^ k
  ((2 * (n / b) + (if n % b = 0 then 0 else 1) : Nat), -(k : Int) - 1)

def fDiv (x y : Nat) : Nat :=
  if fIsNan x || fIsNan y then fNan
  else
    let neg := fNeg x != fNeg y
    if fIsInf x then if fIsInf y then fNan else fInf neg
    else if fIsInf y then fZero neg
    else if fIsZero y then if fIsZero x then fNan else fInf neg
    else if fIsZero x then fZero neg
    else
      let a := fVal x
      let b := fVal y
      let q := quot a.1.natAbs b.1.natAbs
      let r := fRound q.1 (q.2 + a.2 - b.2)
      fMag r + b2n neg * 2 ^ 31

/-- Integer square root by Newton steps from above, with fuel. -/
def isqrtLoop (n x : Nat) (fuel : Nat) : Nat :=
  match fuel with
  | 0 => x
  | f + 1 =>
    let y := (x + n / x) / 2
    if y < x then isqrtLoop n y f else x

def isqrt (n : Nat) : Nat := if n = 0 then 0 else isqrtLoop n (2 ^ (Nat.log2 n / 2 + 1)) 2000

/-- Square root of m × 2^e to 64 bits and a sticky bit. -/
def sqrtDy (m : Nat) (e : Int) : Int × Int :=
  let (m, e) := if e % 2 = 0 then (m, e) else (2 * m, e - 1)
  let k : Nat := 64
  let n : Nat := m * 2 ^ (2 * k)
  let r := isqrt n
  ((2 * r + (if r * r = n then 0 else 1) : Nat), e / 2 - k - 1)

def fSqrt (x : Nat) : Nat :=
  if fIsNan x then fNan
  else if fIsZero x then x
  else if fNeg x then fNan
  else if fIsInf x then x
  else
    let a := fVal x
    let s := sqrtDy a.1.natAbs a.2
    fRound s.1 s.2

def fRecip (x : Nat) : Nat := fDiv 0x3F800000 x

/-- 1 / √x, rounded once: the square root of the reciprocal, to 200 bits and a sticky bit. -/
def fRsqrt (x : Nat) : Nat :=
  if fIsNan x then fNan
  else if fIsZero x then fInf (fNeg x)
  else if fNeg x then fNan
  else if fIsInf x then 0
  else
    let a := fVal x
    let (m, e) := if a.2 % 2 = 0 then (a.1.natAbs, a.2) else (2 * a.1.natAbs, a.2 - 1)
    let n : Nat := 2 ^ 400
    let r := isqrt (n / m)
    fRound (2 * r + (if m * (r * r) = n then 0 else 1)) (-(e / 2) - 200 - 1)

/-- minimum and maximum of IEEE 754-2019: NaN propagates, −0 < +0. -/
def fLess (x y : Nat) : Bool :=
  let key (w : Nat) : Int := if fNeg w then -(fMag w : Int) - 1 else fMag w
  decide (key x < key y)

def fMin (x y : Nat) : Nat := if fIsNan x || fIsNan y then fNan else if fLess y x then y else x
def fMax (x y : Nat) : Nat := if fIsNan x || fIsNan y then fNan else if fLess x y then y else x

/-- Comparison: none where an operand is NaN; −0 equals +0. -/
def fCompare (x y : Nat) : Option Ordering :=
  if fIsNan x || fIsNan y then none
  else
    let key (w : Nat) : Int := if fNeg w then -(fMag w : Int) else fMag w
    some (compare (key x) (key y))

/-- Max and min reductions (R75). -/
def fMaxOf (l : List Nat) : Nat := match l with | [] => fInf true | x :: r => r.foldl fMax (fSelect true x x)
def fMinOf (l : List Nat) : Nat := match l with | [] => fInf false | x :: r => r.foldl fMin (fSelect true x x)

/-- Index of the first element that is the reduction's result. -/
def fArgmax (l : List Nat) : Nat := l.findIdx fun x => fSelect true x x = fMaxOf l
def fArgmin (l : List Nat) : Nat := l.findIdx fun x => fSelect true x x = fMinOf l

/-- Sum and sum-of-squares reductions go through a ledger at the descriptor's anchor, each element one term (R64, R76). -/
def fSumLed (anchor : Nat) (l : List Nat) : Led := l.foldl (fun a w => a.addNum (decodeElem 0xC w)) { anchor := anchor }
def fSquareLed (anchor : Nat) (l : List Nat) : Led :=
  Led.dot { anchor := anchor } (l.map (decodeElem 0xC)) (l.map (decodeElem 0xC))

/-! ### Transcendental functions, on fixed-point numbers with `fxP` fraction bits -/

def fxP : Nat := 640
def fxOne : Int := ((2 ^ fxP : Nat) : Int)
def fxMul (a b : Int) : Int := a * b / fxOne
def fxDiv (a b : Int) : Int := a * fxOne / b

/-- A dyadic as fixed point, floored. -/
def fx (m e : Int) : Int := floorShift m (e + fxP)

/-- atanh series: z + z³/3 + z⁵/5 + …. -/
def atanhLoop (z2 p acc : Int) (k fuel : Nat) : Int :=
  match fuel with
  | 0 => acc
  | f + 1 => atanhLoop z2 (fxMul p z2) (acc + p / (k : Int)) (k + 2) f

def fxAtanh (z : Int) : Int := atanhLoop (fxMul z z) z 0 1 420

/-- ln 2 = 2 atanh(1/3). -/
def fxLn2 : Int := 2 * fxAtanh (fxOne / 3)

/-- exp of a fixed-point number in [0, 1). -/
def expLoop (x t acc : Int) (k fuel : Nat) : Int :=
  match fuel with
  | 0 => acc
  | f + 1 => expLoop x (fxMul t x / (k : Int)) (acc + t) (k + 1) f

def fxExp01 (x : Int) : Int := expLoop x fxOne 0 1 160

/-- e^x as (fixed point in [1, 2], power of two). -/
def fxExp (x : Int) : Int × Int :=
  let n := x / fxLn2
  (fxExp01 (x - n * fxLn2), n)

/-- π = 16 atan(1/5) − 4 atan(1/239). -/
def atanLoop (q : Int) (p acc : Int) (k : Nat) (neg : Bool) (fuel : Nat) : Int :=
  match fuel with
  | 0 => acc
  | f + 1 => atanLoop q (p / (q * q)) (if neg then acc - p / (k : Int) else acc + p / (k : Int)) (k + 2) (!neg) f

def fxPi : Int := 16 * atanLoop 5 (fxOne / 5) 0 1 false 150 - 4 * atanLoop 239 (fxOne / 239) 0 1 false 50

/-- Fixed-point square root. -/
def fxSqrt (a : Int) : Int := (isqrt (a.toNat * 2 ^ fxP) : Nat)

/-- erf series: 2/√π Σ (−1)^k z^(2k+1) / (k! (2k+1)). -/
def erfLoop (z2 t acc : Int) (k fuel : Nat) : Int :=
  match fuel with
  | 0 => acc
  | f + 1 => erfLoop z2 (-(fxMul t z2) / ((k + 1 : Nat) : Int)) (acc + t / ((2 * k + 1 : Nat) : Int)) (k + 1) f

def fxErf (z : Int) : Int := fxDiv (2 * erfLoop (fxMul z z) z 0 0 1200) (fxSqrt fxPi)

/-- Error bound of every fixed-point figure above. -/
def fxErr : Int := ((2 ^ 200 : Nat) : Int)

/-- Round a fixed-point figure v × 2^(k − fxP) known to ± fxErr; where the two ends round apart, the value is
open (log entry 3). -/
def fxRound (v : Int) (k : Int) (seed : Nat) : Nat :=
  let lo := fRound (v - fxErr) (k - fxP)
  let hi := fRound (v + fxErr) (k - fxP)
  if lo = hi then lo else Config.freeNat (2 ^ 70 + seed) % 2 ^ 32


def fExp (x : Nat) : Nat :=
  if fIsNan x then fNan
  else if fIsInf x then if fNeg x then 0 else fInf false
  else if fIsZero x then 0x3F800000
  else
    let a := fVal x
    if decide (0x43000000 ≤ fMag x) then (if fNeg x then 0 else fInf false)
    else
      let (m, n) := fxExp (fx a.1 a.2)
      fxRound m n x

def fExp2 (x : Nat) : Nat :=
  if fIsNan x then fNan
  else if fIsInf x then if fNeg x then 0 else fInf false
  else if fIsZero x then 0x3F800000
  else if decide (0x43800000 ≤ fMag x) then (if fNeg x then 0 else fInf false)
  else
    let a := fVal x
    let v := fx a.1 a.2
    let n := v / fxOne
    -- an integer's power is exact
    if v = n * fxOne && decide (-200 ≤ n) then fRound 1 n else fxRound (fxExp01 (fxMul (v - n * fxOne) fxLn2)) n x

/-- ln of m × 2^e. -/
def fxLn (m : Nat) (e : Int) : Int :=
  let t := Nat.log2 m
  let z := fx m (-(t : Int))
  2 * fxAtanh (fxDiv (z - fxOne) (z + fxOne)) + (e + t) * fxLn2

def fLog2 (x : Nat) : Nat :=
  if fIsNan x then fNan
  else if fIsZero x then fInf true
  else if fNeg x then fNan
  else if fIsInf x then x
  else
    let a := fVal x
    let t := Nat.log2 a.1.natAbs
    if a.1.natAbs = 2 ^ t then fRound (a.2 + t) 0
    else fxRound (fxDiv (fxLn a.1.natAbs a.2) fxLn2) 0 x

/-- e^x as one fixed-point number, for |x| below 200. -/
def fxExpFull (x : Int) : Int :=
  let (m, n) := fxExp x
  floorShift m n

def fTanh (x : Nat) : Nat :=
  if fIsNan x then fNan
  else if fIsInf x then fCopySign 0x3F800000 x
  else if fIsZero x then x
  else if decide (0x41A00000 ≤ fMag x) then fCopySign 0x3F800000 x
  else
    let a := fVal x
    let e := fxExpFull (fx (2 * a.1) a.2)
    fxRound (fxDiv (e - fxOne) (e + fxOne)) 0 x

/-- 1 / (1 + e^−x) of a finite x of magnitude below 200. -/
def fxSigmoid (m e : Int) : Int :=
  fxDiv fxOne (fxOne + fxExpFull (fx (-m) e))

def fSigmoid (x : Nat) : Nat :=
  if fIsNan x then fNan
  else if fIsInf x then if fNeg x then 0 else 0x3F800000
  else if decide (0x43000000 ≤ fMag x) then (if fNeg x then 0 else 0x3F800000)
  else
    let a := fVal x
    fxRound (fxSigmoid a.1 a.2) 0 x

def fErf (x : Nat) : Nat :=
  if fIsNan x then fNan
  else if fIsZero x then x
  else if decide (0x40C00000 ≤ fMag x) then fCopySign 0x3F800000 x
  else
    let a := fVal x
    fxRound (fxErf (fx a.1 a.2)) 0 x

def fGelu (x : Nat) : Nat :=
  if fIsNan x then fNan
  else if fIsInf x then if fNeg x then fZero true else x
  else if fIsZero x then x
  else if decide (0x41800000 ≤ fMag x) then (if fNeg x then fZero true else x)
  else
    let a := fVal x
    let z := fx a.1 a.2
    let g := fxOne + fxErf (fxDiv z (fxSqrt (2 * fxOne)))
    let r := fxRound (z * g / (2 * fxOne)) 0 x
    if fMag r = 0 then fZero (fNeg x) else r

def fSilu (x : Nat) : Nat :=
  if fIsNan x then fNan
  else if fIsInf x then if fNeg x then fZero true else x
  else if fIsZero x then x
  else if decide (0x43000000 ≤ fMag x) then (if fNeg x then fZero true else x)
  else
    let a := fVal x
    let r := fxRound (fxMul (fx a.1 a.2) (fxSigmoid a.1 a.2)) 0 x
    if fMag r = 0 then fZero (fNeg x) else r

end Sys2Proof.Machine
end

