-- ==== Sys2Proof/Machine/Cutter.lean ====
section
/-! DEFINITION. The Cutter: grammars (R163, R164), bitmaps (R162) and the selection of a token (R160, R161). -/
namespace Sys2Proof.Machine

/-! ### Grammars; `g` is the constants section of a grammar reel -/

def gramStart (g : Bytes) : Nat := leAt g 6 2
def gramStates (g : Bytes) : Nat := leAt g 8 4
def gramVocab (g : Bytes) : Nat := leAt g 12 4
def gramEdges (g : Bytes) : Nat := leAt g 16 4
def gramSets (g : Bytes) : Nat := leAt g 20 4
def setSize (vocab : Nat) : Nat := ceilDiv vocab 512 * 64

/-- State record: first edge, edge count, ACCEPT. -/
structure GState where
  first : Nat
  count : Nat
  accept : Bool
  deriving DecidableEq, Repr

def gramState (g : Bytes) (st : Nat) : GState :=
  let o := leAt g 0x18 4 + 8 * st
  { first := leAt g o 4, count := leAt g (o + 4) 2, accept := (leAt g (o + 6) 1).testBit 0 }

/-- Edge record. -/
structure GEdge where
  lo : Nat
  hi : Nat
  next : Nat
  kind : Nat
  deriving DecidableEq, Repr

def gramEdge (g : Bytes) (e : Nat) : GEdge :=
  let o := leAt g 0x1C 4 + 12 * e
  { lo := leAt g o 4, hi := leAt g (o + 4) 4, next := leAt g (o + 8) 2, kind := leAt g (o + 10) 1 }

/-- Is token t in set n? -/
def inSet (g : Bytes) (n t : Nat) : Bool :=
  (leAt g (leAt g 0x20 4 + n * setSize (gramVocab g) + t / 8) 1).testBit (t % 8)

def edgeHas (g : Bytes) (e : GEdge) (t : Nat) : Bool :=
  if e.kind = 0 then decide (e.lo ≤ t) && decide (t ≤ e.hi) else inSet g e.lo t

def gramStateEdges (g : Bytes) (st : Nat) : List GEdge :=
  let r := gramState g st
  (List.range r.count).map fun k => gramEdge g (r.first + k)

/-- The edge of state st that holds token t. -/
def gramFind (g : Bytes) (st t : Nat) : Option GEdge :=
  (gramStateEdges g st).find? fun e => edgeHas g e t

/-- Is t allowed in state st (R164)? -/
def gramAllows (g : Bytes) (stop : List Nat) (st t : Nat) : Bool :=
  (gramFind g st t).isSome || ((gramState g st).accept && stop.contains t)

/-- State after a selected token, and how the grammar ends there: 0 no, 1 GRAMMAR_END, 2 STOP (R164). -/
def gramStep (g : Bytes) (stop : List Nat) (st t : Nat) : Nat × Nat :=
  match gramFind g st t with
  | none => (st, if stop.contains t then 2 else 0)
  | some e =>
    let n := gramState g e.next
    (e.next, if n.accept && n.count = 0 then 1 else 0)

/-! ### Selection (R160) -/

/-- What a row's selection needs. -/
structure SelCfg where
  temp : Nat := 0
  topP : Nat := 0x3F800000
  topK : Nat := 256
  k0 : Nat := 0
  k1 : Nat := 0
  bitmap : Option Bytes := none
  stop : List Nat := []
  gram : Option Bytes := none
  deriving DecidableEq, Repr

/-- Eligibility apart from the logit (R160 step 1). -/
def eligible (c : SelCfg) (gst t : Nat) : Bool :=
  (match c.gram with | some g => gramAllows g c.stop gst t | none => true) &&
  (match c.bitmap with | some b => (leAt b (t / 8) 1).testBit (t % 8) | none => true)

/-- Order on binary32 codes that are not NaN, with −0 = +0. -/
def fKey (w : Nat) : Int := if fNeg w then -(fMag w : Int) else fMag w

/-- Candidates ordered by a key descending, then index ascending (R160 steps 5 and 7): insertion. -/
def insDesc (l : List (Nat × Int)) (x : Nat × Int) : List (Nat × Int) :=
  match l with
  | [] => [x]
  | y :: r => if decide (y.2 < x.2) || (decide (y.2 = x.2) && decide (x.1 < y.1)) then x :: y :: r else y :: insDesc r x

/-- The k leading candidates: insertion keeps at most k. -/
def topCand (k : Nat) (l : List (Nat × Int)) : List (Nat × Int) :=
  l.foldl (fun acc x => (insDesc acc x).take k) []

/-- floor(exp2((l − lmax) / TEMP) × 2^32) (R160 step 6). -/
def weight (temp lmax l : Nat) : Nat :=
  let e := fVal (fExp2 (fDiv (fSub l lmax) temp))
  (floorShift e.1 (e.2 + 32)).toNat

/-- Shortest leading run of the order whose sum is at least `need` (R160 step 8). -/
def leadRun (need acc : Nat) (l : List (Nat × Int)) : List (Nat × Int) :=
  match l with
  | [] => []
  | x :: r => if need ≤ acc + x.2.toNat then [x] else x :: leadRun need (acc + x.2.toNat) r

/-- First candidate whose running sum exceeds u (R160 step 9). -/
def drawRun (u acc : Nat) (l : List (Nat × Int)) : Option Nat :=
  match l with
  | [] => none
  | x :: r => if u < acc + x.2.toNat then some x.1 else drawRun u (acc + x.2.toNat) r

/-- ceil(TOP_P × S), exactly. -/
def ceilTopP (topP s : Nat) : Nat :=
  let v := fVal topP
  (-(floorShift (-(v.1 * (s : Int))) v.2)).toNat

/-- Outcome of a row: the token, whether it was decided at step 3 or 4, NaN logits met. -/
structure Picked where
  token : Option Nat
  greedy : Bool := false
  nans : Nat := 0
  deriving DecidableEq, Repr

/-- Selection of the token for position p from a row of binary32 logits (R160). -/
def select (c : SelCfg) (gst p : Nat) (row : List Nat) : Picked :=
  let idx := (row.zip (List.range row.length)).map fun x => (x.2, x.1)
  let nans := countIf (fun x => fIsNan x.2) idx
  let el := idx.filter fun x => !fIsNan x.2 && !(fIsInf x.2 && fNeg x.2) && eligible c gst x.1
  match el.find? fun x => fIsInf x.2 with
  | some x => { token := some x.1, greedy := true, nans := nans }
  | none =>
    let keyed := el.map fun x => (x.1, fKey x.2)
    match topCand (if fIsZero c.temp then 1 else if c.topK = 0 then 256 else c.topK) keyed with
    | [] => { token := none, nans := nans }
    | b :: r =>
      if fIsZero c.temp then { token := some b.1, greedy := true, nans := nans }
      else
        let logit (t : Nat) : Nat := row.getD t 0
        let ws := (b :: r).map fun x => (x.1, (weight c.temp (logit b.1) (logit x.1) : Int))
        let order := ws.foldl insDesc []
        let s := sumNat (order.map fun x => x.2.toNat)
        let kept := if fLess c.topP 0x3F800000 then leadRun (ceilTopP c.topP s) 0 order else order
        let s' := sumNat (kept.map fun x => x.2.toNat)
        { token := drawRun (drawOf c.k0 c.k1 p * s' / 2 ^ 64) 0 kept, nans := nans }

end Sys2Proof.Machine
end

