-- ==== Sys2Proof/Machine/TeleEngine.lean ====
section
/-! DEFINITION. The Telecine engine: operation descriptors, the work area, and the start of a picture (R202–R213,
R215, R217–R220). -/
namespace Sys2Proof.Machine

/-! ### Operation descriptors and the work area (R203, R205, R206, R208) -/

structure TeleDesc where
  op : Nat
  prof : Nat
  rc : Nat
  w : Nat
  h : Nat
  split : Nat
  sliceRows : Nat
  idrPeriod : Nat
  qpI : Nat
  qpP : Nat
  qpMin : Nat
  qpMax : Nat
  targetBits : Nat
  rcStep : Nat
  src : Nat
  pitch : Nat
  pics : Nat
  refs : Nat
  level : Nat
  work : Nat
  ringLen : Nat
  n2 : Nat
  lag : Nat
  rsvd : Bytes
  deriving DecidableEq, Repr

def teleDesc (b : Bytes) : TeleDesc :=
  { op := leAt b 0 2, prof := leAt b 2 1, rc := leAt b 3 1, w := leAt b 4 2, h := leAt b 6 2, split := leAt b 8 1,
    sliceRows := leAt b 9 1, idrPeriod := leAt b 10 2, qpI := leAt b 12 1, qpP := leAt b 13 1, qpMin := leAt b 14 1,
    qpMax := leAt b 15 1, targetBits := leAt b 16 4, rcStep := leAt b 20 4, src := leAt b 24 8, pitch := leAt b 32 4,
    pics := leAt b 36 2, refs := leAt b 38 1, level := leAt b 39 1, work := leAt b 40 8, ringLen := leAt b 48 4,
    n2 := leAt b 52 2, lag := leAt b 54 1, rsvd := (b.drop 0x37).take 9 }

def opEncode : Nat := 0x60
def opDecode : Nat := 0x61

/-- Bytes of a sample. -/
def TeleDesc.s (d : TeleDesc) : Nat := if d.prof.testBit 0 then 2 else 1
def TeleDesc.mono (d : TeleDesc) : Bool := d.prof.testBit 1
/-- Width of a tile picture (R208). -/
def TeleDesc.tw (d : TeleDesc) : Nat := roundUp d.w (64 * max 1 d.split) / max 1 d.split
/-- Coded width and height. -/
def TeleDesc.wc (d : TeleDesc) : Nat := d.tw
def TeleDesc.hc (d : TeleDesc) : Nat := roundUp d.h 64
def TeleDesc.px (d : TeleDesc) : Nat := d.wc * d.hc
/-- Cycles of one picture (R203). -/
def TeleDesc.picCycles (d : TeleDesc) : Nat := 400 + ceilDiv (d.px * 4) 21
/-- CYCLES of the item (R209). -/
def TeleDesc.cycles (d : TeleDesc) : Nat := d.pics * d.split * d.picCycles
/-- Bytes of a frame. -/
def TeleDesc.fr (d : TeleDesc) : Nat := d.px * 3 / 2 * d.s
/-- Slices of a picture. -/
def TeleDesc.slices (d : TeleDesc) : Nat := ceilDiv (d.hc / 64) (max 1 d.sliceRows)
/-- Worst case of ring bytes of a picture (R215). -/
def TeleDesc.worst (d : TeleDesc) : Nat := d.px * 2 * d.s + 64 * (d.slices + 1)
/-- Bytes of a statistics entry (R217). -/
def TeleDesc.statLen (d : TeleDesc) : Nat := 32 + d.wc / 16 * (d.hc / 16) * 8 + d.wc / 64 * (d.hc / 64) * 8
/-- The staging area is the source. -/
def TeleDesc.staged (d : TeleDesc) : Bool := d.src = 2 ^ 64 - 1
/-- Bytes of one staged source picture (R206, R207). -/
def TeleDesc.stagePic (d : TeleDesc) : Nat := d.w * d.s * (d.h + (if d.mono then 0 else d.h / 2))
def TeleDesc.stageLen (d : TeleDesc) : Nat := if d.staged then roundUp (d.stagePic * d.pics) 4096 else 0

def TeleDesc.framesLen (d : TeleDesc) : Nat := roundUp ((if d.op = opDecode then 7 else d.refs + 1) * d.fr) 4096
/-- Header and data of the ring after the frames. -/
def TeleDesc.ringPart (d : TeleDesc) : Nat :=
  if d.op = opDecode then roundUp (64 + d.n2 * (64 + d.fr)) 4096 else roundUp (64 + d.ringLen) 4096
def TeleDesc.statPart (d : TeleDesc) : Nat := if d.op = opDecode then 0 else roundUp (64 + d.n2 * d.statLen) 4096
def TeleDesc.blockLen (d : TeleDesc) : Nat := d.framesLen + d.ringPart + d.statPart
/-- Bytes of the work area. -/
def TeleDesc.workLen (d : TeleDesc) : Nat := d.stageLen + max 1 d.split * d.blockLen

/-- Partition-space addresses of tile t's parts. -/
def TeleDesc.frameAt (d : TeleDesc) (t k : Nat) : Nat := d.work + d.stageLen + t * d.blockLen + k * d.fr
def TeleDesc.ringAt (d : TeleDesc) (t : Nat) : Nat := d.work + d.stageLen + t * d.blockLen + d.framesLen
def TeleDesc.statAt (d : TeleDesc) (t : Nat) : Nat := d.ringAt t + d.ringPart

/-! ### Contexts and items -/

/-- Physical contexts of an item, tile by tile. -/
def State.teleCtxs (s : State) (i : Item) : List Nat :=
  match s.findReel i.p i.handle with
  | none => []
  | some r =>
    let d := teleDesc (fitBytes 64 ((r.image.drop i.desc).take 64))
    (List.range (max 1 d.split)).filterMap fun t => r.teleCtx[i.unit - 0x400 + t]?

/-- A later item on a halted context waits (R220), as it does on one that still has pictures to code. -/
def State.teleReady (s : State) (i : Item) : Bool :=
  if i.unit < 0x400 || 0x500 ≤ i.unit then true
  else (s.teleCtxs i).all fun c => (s.tctx c).st ≠ 2 && (s.tctx c).picsLeft = 0

/-- The item starts on its contexts. -/
def State.startTele (s : State) (i : Item) : State :=
  match s.findReel i.p i.handle with
  | none => s
  | some r =>
    let b := fitBytes 64 ((r.image.drop i.desc).take 64)
    let d := teleDesc b
    let cs := s.teleCtxs i
    (List.range cs.length).foldl (fun s t => s.modTctx (cs.getD t 0) fun k => { k with
      mode := if d.op = opDecode then 2 else 1
      st := if i.cls = 1 then 0 else 3
      part := i.p, reel := i.handle, item := i.id, picsLeft := d.pics, desc := b, tile := t
      tick := i.tick - d.lag, slice := 0, slicesDone := 0, picBytes := 0, nalBytes := 0 }) s

def TeleCtx.d (t : TeleCtx) : TeleDesc := teleDesc t.desc
def State.teleUser (s : State) (c : Nat) : Requester :=
  let t := s.tctx c
  { p := t.part, unit := unitCode (pgTctx c), clsA := t.classA }

/-- IDR under IDR_PERIOD, or forced (R205, R212, R220). -/
def TeleCtx.idr (t : TeleCtx) : Bool :=
  t.forceIdr || (if t.d.idrPeriod = 0 then t.pic = 0 else t.pic % t.d.idrPeriod = 0)

/-- QP of the picture (R213). -/
def TeleCtx.picQp (t : TeleCtx) : Nat :=
  let d := t.d
  let q : Int := if t.idr then d.qpI else d.qpP
  if d.rc % 4 = 1 then (max (d.qpMin : Int) (min (d.qpMax : Int) (q + t.full / (max 1 d.rcStep : Nat)))).toNat else q.toNat

/-! ### Halts (R220) -/

def teleInfo (cause pic : Nat) : Word := word (cause + pic % 65536 * 65536)

def State.haltCtx (s : State) (c cause addr : Nat) (reh : Bool := false) : State :=
  let t := s.tctx c
  let s := s.modTctx c fun t => { t with st := 2 }
  let s := if s.tele.engine = some c then { s with tele := { s.tele with engine := none } } else s
  let pg := pgTctx c
  let s := if cause = 1 then s.parityFault pg 11 addr (teleInfo 1 t.pic) reh
    else s.fault pg (if cause = 4 then 11 else 12) addr (teleInfo cause t.pic) reh
  let s := s.raiseWith pgTele 8 reh false
  let code := if cause = 1 || cause = 4 then codeParity else codeBus
  match s.item t.item with
  | none => s
  | some i =>
    if i.cls = 1 then
      let s := s.itemRecord i code i.faultData reh
      if reh then s.markRehearsal i else s
    else if i.st = .halted || i.unit < 0x400 then s else s.haltItem i code reh

/-- Cause of a failed store access: read or write bus error, poisoned granule, RMW_PARITY. -/
def teleCause (wr : Bool) : StoreErr → Nat
  | .parity _ => 4 | .rmw _ => 5 | _ => if wr then 3 else 2

/-- Read for context c; a failure halts it. -/
def State.teleRead (s : State) (c a n : Nat) : Option Bytes × State :=
  onExc (s.load (s.teleUser c) a n) (fun e s => (none, s.haltCtx c (teleCause false e) (s.failAt (s.tctx c).part e))) fun b s => (some b, s)

/-- Write for context c; a failure halts it. -/
def State.teleWrite (s : State) (c a : Nat) (b : Bytes) : Bool × State :=
  onErr (s.store (s.teleUser c) a b) (fun e s => (false, s.haltCtx c (teleCause true e) (s.failAt (s.tctx c).part e))) fun s => (true, s)

/-! ### Sources (R207, R208) -/

/-- Address of picture k of the firing, and the row pitch. -/
def TeleDesc.source (d : TeleDesc) (k : Nat) : Nat × Nat :=
  if d.staged then (d.work + k * d.stagePic, d.w * d.s)
  else (d.src + k * (d.pitch * (d.h + (if d.mono then 0 else d.h / 2))), d.pitch)

/-- The rows that a tile reads: address and length. -/
def TeleDesc.rows (d : TeleDesc) (t k : Nat) : List (Nat × Nat) :=
  let (a, pitch) := d.source k
  let x0 := min (t * d.tw) (d.w - 1)
  let x1 := max (x0 + 1) (min (t * d.tw + d.wc) d.w)
  let luma := (List.range d.h).map fun y => (a + y * pitch + x0 * d.s, (x1 - x0) * d.s)
  let chroma := (List.range (d.h / 2)).map fun y => (a + (d.h + y) * pitch + x0 / 2 * 2 * d.s, roundUp (x1 - x0) 2 * d.s)
  if d.mono then luma else luma ++ chroma

/-- Read rows until one fails. -/
def State.teleRows (s : State) (c : Nat) (l : List (Nat × Nat)) (acc : Bytes) : Option Bytes × State :=
  match l with
  | [] => (some acc, s)
  | (a, n) :: r =>
    onSome (s.teleRead c a n) (fun s => (none, s)) fun b s => s.teleRows c r (acc ++ b)

/-! ### The start of a picture -/

/-- Room in the bitstream ring for the worst case (R215). -/
def State.ringRoom (s : State) (c : Nat) : Bool :=
  let t := s.tctx c
  let d := t.d
  let consumed := leNat (s.rawMain (s.msBase t.part + d.ringAt t.tile + 8) 8)
  decide (t.produced - consumed + d.worst ≤ d.ringLen)

/-- The next access-unit record of the input ring as the store holds it: LEN, FLAGS and the access unit, when a whole record is
present (R218). -/
def State.nextAu (s : State) (c : Nat) : Option (Nat × Nat × Bytes) :=
  let t := s.tctx c
  let d := t.d
  let base := s.msBase t.part + d.src
  let produced := leNat (s.rawMain base 8)
  let n := max 1 d.ringLen
  let at' (o k : Nat) : Bytes := (List.range k).flatMap fun j => s.rawMain (base + 64 + (o + j) % n) 1
  if produced < t.consumed + 16 then none
  else
    let h := at' t.consumed 16
    let len := leAt h 0 4
    if produced < t.consumed + 16 + roundUp len 16 then none
    else some (len, leAt h 4 4, at' (t.consumed + 16) len)

/-- An output slot is free (R218). -/
def State.slotFree (s : State) (c : Nat) : Bool :=
  let t := s.tctx c
  let consumed := leNat (s.rawMain (s.msBase t.part + t.d.ringAt t.tile + 8) 8)
  decide (t.outCount - consumed < t.d.n2)

/-- May context c's next picture start, as far as its own item and rings go? -/
def State.picReady (s : State) (c : Nat) : Bool :=
  let t := s.tctx c
  s.tele.engine.isNone && decide (0 < t.picsLeft) && (t.st = 0 || t.st = 3) &&
  (match s.item t.item with | some i => i.st = .running | none => t.item = 0) &&
  (t.classA || (decide (t.d.picCycles ≤ s.tele.gapMax) &&
    (if t.mode = 2 then t.due.isEmpty && s.slotFree c && !t.skipping && (s.nextAu c).isSome else s.ringRoom c)))

/-- Ring headers that the engine reads before a picture: the input and output rings of a decode, the bitstream ring of a class B or C
encode (R215, R218). -/
def TeleCtx.headers (t : TeleCtx) : List (Nat × Nat) :=
  if t.mode = 2 then [(t.d.src, 16), (t.d.ringAt t.tile, 16)] else if t.classA then [] else [(t.d.ringAt t.tile, 16)]

/-- Context c gets the engine, which reads its ring headers; an injected parity error halts the picture at its first read (R403). -/
def State.startPicture (s : State) (c : Nat) : State :=
  let s := ({ s with tele := { s.tele with engine := some c } } : State).modTctx c fun t => { t with st := 1 }
  match s.takeInject (pgTctx c) with
  | (none, s) => (s.teleRows c (s.tctx c).headers []).2
  | (some i, s) => (s.haltCtx c 1 0 true).injectOutcome i.entry i.kind 1

/-- Does context c come first of its item: tile pictures of one source picture in tile order (R208)? -/
def State.firstTile (s : State) (c : Nat) : Bool :=
  let t := s.tctx c
  !((List.range 64).any fun k =>
    let u := s.tctx k
    u.item = t.item && t.item ≠ 0 && (decide (t.picsLeft < u.picsLeft) || (t.picsLeft = u.picsLeft && decide (u.tile < t.tile))))

/-- The context whose turn it is: class A first, in item order.  While a class A reel holds a context the other classes wait for their
start in a gap (R211); otherwise one that is ready starts, and the spec gives no order among them. -/
def State.pickPicture (s : State) : Option Nat × State :=
  let ready := (List.range 64).filter fun c => s.picReady c && s.firstTile c
  match ready.filter fun c => (s.tctx c).classA with
  | c :: r => (some (r.foldl (fun b k => if (s.tctx k).item < (s.tctx b).item then k else b) c), s)
  | [] =>
    if ready.isEmpty || !(s.tele.gapMax = 0xFFFFFFFF) then (none, s)
    else
      let (n, s) := s.draw
      (ready[Config.freeNat n % ready.length]?, s)

/-- Give a free engine to contexts in turn until one holds it: a context that halts at its start leaves it to the next (R220). -/
def State.pictures (s : State) (fuel : Nat) : State :=
  match fuel with
  | 0 => s
  | fuel + 1 =>
    onSome s.pickPicture id fun c s =>
      let s := s.startPicture c
      if s.tele.engine.isSome then s else s.pictures fuel

def State.nextPicture (s : State) : State := s.pictures 64

/-! ### Ends of pictures -/

/-- The context drops what is left of its item; its numbering goes on as if the pictures had been coded (R220). -/
def State.endTele (s : State) (c : Nat) : State :=
  let s := s.modTctx c fun t => { t with
    st := 0, item := 0, pic := t.pic + t.picsLeft, picsLeft := 0, forceIdr := true, slice := 0, slicesDone := 0, picBytes := 0, nalBytes := 0
    due := t.due, sinceIdr := 0 }
  if s.tele.engine = some c then { s with tele := { s.tele with engine := none } } else s

/-- An item that leaves without completing: a halted context keeps its picture for CTX_CMD, the others drop theirs. -/
def State.endItemTele (s : State) (i : Item) : State :=
  (List.range 64).foldl (fun s c =>
    if (s.tctx c).item = i.id && i.id ≠ 0 then
      if (s.tctx c).st = 2 then s.modTctx c fun t => { t with item := 0, picsLeft := 1 }
      else s.endTele c
    else s) s

end Sys2Proof.Machine
end

