-- ==== Sys2Proof/Machine/Tiles.lean ====
section
/-! DEFINITION. Padded reductions, map rows, weight tiles and the draw-cell descriptor (R80, R84, R86, R114, R115, R434). -/
namespace Sys2Proof.Machine

/-- Reduction terms per cycle for a pair of formats (R58, R80). -/
def kcOf (a b : Nat) : Nat :=
  let g (f : Nat) : Nat := if f = 0xA || f = 0xB then 2 else if f = 1 || f = 8 then 0 else 1
  match max (g a) (g b) with | 0 => 8 | 1 => 4 | _ => 1

/-- K rounded up (R86, R115). -/
def padK (k a b : Nat) : Nat := if isMx a || isMx b then roundUp k 32 else roundUp k (kcOf a b)

/-- Bytes of a row's elements, and of a whole row in the can map layout. -/
def rowElems (code w c : Nat) : Nat := ceilDiv (w * c * fmtBits code) 8
def rowBytes (code w c : Nat) : Nat := roundUp (rowElems code w c + (if isMx code then w * ceilDiv c 32 else 0)) 16

/-- Bytes of a map of raw rows on a stream: elements in row-major order, no padding; each MX row ends in its scale bytes. -/
def streamLen (code w c rows : Nat) : Nat :=
  if isMx code then rows * (rowElems code w c + w * ceilDiv c 32) else ceilDiv (rows * w * c * fmtBits code) 8

/-- A stream's bytes as a map in the can map layout. -/
def unstream (code w c rows : Nat) (b : Bytes) : Bytes :=
  (List.range rows).flatMap fun y =>
    fitBytes (rowBytes code w c) (if isMx code then let n := rowElems code w c + w * ceilDiv c 32; (b.drop (y * n)).take n
      else packElems code ((List.range (w * c)).map fun k => elemAt code b (y * w * c + k)))

/-- Rows without padding as a stream's bytes. -/
def enstream (code w c : Nat) (rows : List Bytes) : Bytes :=
  if isMx code then rows.flatten else packElems code (rows.flatMap fun r => (List.range (w * c)).map (elemAt code r))

def tileBytes (code kpad : Nat) : Nat := ceilDiv (kpad * 32 * fmtBits code) 8 + (if isMx code then kpad / 32 * 32 else 0)

structure DrawDesc where
  op : Nat
  fmtA : Nat
  fmtW : Nat
  out : Nat
  rnd : Nat
  sat : Bool
  k : Nat
  n : Nat
  rows : Nat
  act : Nat
  bias : Bool
  residual : Bool
  weight : Nat
  tileTab : Nat
  biasOff : Nat
  tileCh : Nat
  inPort : Nat
  outPort : Nat
  actArea : Nat
  deriving DecidableEq, Repr

def opStream : Nat := 0x20

def drawDesc (b : Bytes) : DrawDesc :=
  { op := leAt b 0 2, fmtA := leAt b 2 1 % 16, fmtW := leAt b 2 1 / 16, out := leAt b 3 1 % 16, rnd := leAt b 3 1 / 16 % 8,
    sat := (leAt b 3 1).testBit 7, k := leAt b 4 4, n := leAt b 8 4, rows := leAt b 0x0C 2, act := leAt b 0x0E 1,
    bias := (leAt b 0x0F 1).testBit 0, residual := (leAt b 0x0F 1).testBit 1, weight := leAt b 0x10 8, tileTab := leAt b 0x18 4,
    biasOff := leAt b 0x1C 4, tileCh := leAt b 0x20 2, inPort := leAt b 0x22 1, outPort := leAt b 0x23 1, actArea := leAt b 0x24 4 }

def DrawDesc.kPad (d : DrawDesc) : Nat := padK d.k d.fmtA d.fmtW
def DrawDesc.weightBytes (d : DrawDesc) : Nat := ceilDiv d.n 32 * tileBytes d.fmtW d.kPad

/-- Stream-buffer pages of an item of `rows` rows: weights in the two halves, and the activation area (R114). -/
def DrawDesc.pages (d : DrawDesc) (rows : Nat) : Nat :=
  ceilDiv (min d.weightBytes (3 * 1024 * 1024)) 4096 + ceilDiv (ceilDiv (rows * d.kPad * fmtBits d.fmtA) 8) 4096

end Sys2Proof.Machine
end

