-- ==== Sys2Proof/Machine/Desc.lean ====
section
/-! DEFINITION. Context descriptors as the 256 bytes of the context table (R140–R142). -/
namespace Sys2Proof.Machine

/-- Partition whose context range holds index i. -/
def State.ctxOwner (s : State) (i : Nat) : Option Nat :=
  (List.range 16).find? fun p => decide (s.ctxFirst p ≤ i) && decide (i < s.ctxFirst p + s.ctxCount p)

/-- Bytes 0x00 to 0xFB of a descriptor that is not all zero (R141). -/
def Desc.body (d : Desc) (part : Nat) : Bytes :=
  leBytes 1 d.state ++ leBytes 1 d.cause ++ leBytes 1 d.endCode ++ leBytes 1 (b2n d.hasLast + 2 * b2n d.run)
  ++ leBytes 4 (d.index % 2 ^ 20 + part * 2 ^ 24) ++ leBytes 4 d.ver ++ leBytes 2 d.reel ++ leBytes 2 d.grammar
  ++ leBytes 4 d.pos ++ leBytes 4 d.lastToken ++ leBytes 8 (d.step % 2 ^ 44) ++ leBytes 8 d.gen
  ++ leBytes 2 d.gramState ++ leBytes 2 d.lg ++ leBytes 4 d.slotBytes ++ leBytes 8 d.cacheAddr ++ leBytes 8 d.cacheLen
  ++ fitBytes 64 d.params
  ++ leBytes 8 d.deadline ++ leBytes 4 d.parkFirst ++ leBytes 4 d.parkGran ++ leBytes 4 d.runSeq ++ leBytes 2 d.runSlot
  ++ leBytes 1 d.runOp ++ leBytes 1 0 ++ leBytes 8 d.runOut ++ leBytes 4 d.runLeft ++ leBytes 4 d.runCount
  ++ leBytes 4 d.runReel ++ fitBytes 8 d.geom ++ leBytes 68 0 ++ leBytes 4 d.ver

/-- The 256 bytes of the context table; CHECK is the CRC-32C of the rest. -/
def Desc.bytes (d : Desc) (part : Nat) : Bytes :=
  if d = {} then List.replicate 256 0
  else
    let b := d.body part
    b ++ leBytes 4 (crc32c b)

/-- The descriptor that 256 bytes hold. -/
def Desc.parse (b : Bytes) : Desc :=
  if b.all fun x => x = 0 then {} else
  { state := leAt b 0 1, cause := leAt b 1 1, endCode := leAt b 2 1, hasLast := (leAt b 3 1).testBit 0,
    run := (leAt b 3 1).testBit 1, index := leAt b 4 4 % 2 ^ 20, ver := leAt b 8 4, reel := leAt b 12 2,
    grammar := leAt b 14 2, pos := leAt b 16 4, lastToken := leAt b 20 4, step := leAt b 24 8, gen := leAt b 32 8,
    gramState := leAt b 40 2, lg := leAt b 42 2, slotBytes := leAt b 44 4, cacheAddr := leAt b 48 8,
    cacheLen := leAt b 56 8, params := (b.drop 64).take 64,
    deadline := leAt b 0x80 8, parkFirst := leAt b 0x88 4, parkGran := leAt b 0x8C 4, runSeq := leAt b 0x90 4,
    runSlot := leAt b 0x94 2, runOp := leAt b 0x96 1, runOut := leAt b 0x98 8, runLeft := leAt b 0xA0 4,
    runCount := leAt b 0xA4 4, runReel := leAt b 0xA8 4, geom := (b.drop 0xAC).take 8 }

/-- Partition in the INDEX field of 256 descriptor bytes. -/
def descPart (b : Bytes) : Nat := leAt b 4 4 / 2 ^ 24 % 16

/-- A principal's next continuity message carries each descriptor written back since the last one (R321). -/
def State.ctxChanged (s : State) (i : Nat) : State :=
  if s.paired && s.twin.role = .principal && !s.twin.ctxDue.contains i then
    { s with twin := { s.twin with ctxDue := s.twin.ctxDue ++ [i] } }
  else s

/-- Requester code of the script core and the park copy path, and of continuity checkpoint traffic (PARK page). -/
def scriptUnit : Nat := 0x7FE
def ckptUnit : Nat := 0x7FD

/-- The script core writes descriptor i back whole, bytes 0x00 to 0xFF in ascending order (R142). -/
def State.writeBack (s : State) (i : Nat) : State :=
  match s.ctxOwner i with
  | none => s
  | some p => (s.writeGrans { p := p, unit := scriptUnit } (256 * i) ((s.desc i).bytes p) 4).2

/-- Change descriptor i and write it back: VER rises by one (R142; log entry 24). -/
def State.setDesc (s : State) (i : Nat) (f : Desc → Desc) : State :=
  ((s.modDesc i fun d => { f d with ver := (d.ver + 1) % 2 ^ 32, index := i }).writeBack i).ctxChanged i

/-- Do 256 bytes hold a descriptor: all zero, or a right CHECK (R142)? -/
def descSound (b : Bytes) : Bool := (b.all fun x => x = 0) || crc32c (b.take 252) = leAt b 252 4

/-- The script core fetches descriptor i of partition p; a hot one is in the scoreboard.  False where CHECK fails, or
where the store gives no clean bytes (R142; log entry 90). -/
def State.fetchDesc (s : State) (p i : Nat) : Bool × State :=
  if s.script.hot.contains i then (true, s)
  else onErr (s.readGrans { p := p, unit := scriptUnit } (4 * i) 4) (fun _ s => (false, s)) fun s =>
    let b := s.rawMain (256 * i) 256
    if descSound b then (true, s.modDesc i fun _ => Desc.parse b) else (false, s)

end Sys2Proof.Machine
end

