-- ==== Sys2Proof/Machine/Take.lean ====
section
/-! DEFINITION. Received DATA frames, take conversations, fills and rushes (R10, R21, R286, R288, R295–R298, R302). -/
namespace Sys2Proof.Machine

/-! ### Byte ranges: rising, apart, as (offset, length) -/

/-- Add a range, joining what it meets. -/
def rangeAdd (l : List (Nat × Nat)) (o n : Nat) : List (Nat × Nat) :=
  match l with
  | [] => [(o, n)]
  | (a, m) :: r =>
    if o + n < a then (o, n) :: (a, m) :: r
    else if a + m < o then (a, m) :: rangeAdd r o n
    else rangeAdd r (min a o) (max (a + m) (o + n) - min a o)

/-- Parts of [o, e) that the ranges leave out. -/
def rangeGaps (l : List (Nat × Nat)) (o e : Nat) : List (Nat × Nat) :=
  match l with
  | [] => if o < e then [(o, e - o)] else []
  | (a, m) :: r =>
    if a + m ≤ o then rangeGaps r o e
    else (if o < min a e then [(o, min a e - o)] else []) ++ rangeGaps r (max o (a + m)) e

/-- Parts of [o, e) that the ranges hold. -/
def rangeHits (l : List (Nat × Nat)) (o e : Nat) : List (Nat × Nat) :=
  l.filterMap fun (r : Nat × Nat) =>
    let a := max o r.1
    let b := min e (r.1 + r.2)
    if a < b then some (a, b - a) else none

/-! ### The take channel table (R295) -/

structure TakeChan where
  ch : Nat
  src : Nat
  bytes : Nat
  area : Nat
  fill : Byte
  deriving DecidableEq, Repr

structure TakeTable where
  ringTicks : Nat
  tickBytes : Nat
  ringOff : Nat
  chans : List TakeChan
  deriving DecidableEq, Repr

/-- The constants section of a reel image (R35): offset and length. -/
def constOff (im : Bytes) : Nat := leAt im 0x70 8
def constLen (im : Bytes) : Nat := leAt im 0x78 8

def takeMagic : Nat := 0x454B4154

/-- One channel entry at `o`. -/
def takeChan (im : Bytes) (o : Nat) : TakeChan :=
  { ch := leAt im o 2, src := leAt im (o + 2) 2, bytes := leAt im (o + 4) 4, area := leAt im (o + 8) 4,
    fill := BitVec.ofNat 8 (leAt im (o + 12) 1) }

/-- The table that opens the constants section of a class A reel, if any. -/
def takeTable (im : Bytes) : Option TakeTable :=
  let o := constOff im
  if constLen im < 0x20 ∨ leAt im o 4 ≠ takeMagic then none
  else some { ringTicks := leAt im (o + 6) 2, tickBytes := leAt im (o + 8) 4, ringOff := leAt im (o + 16) 8,
              chans := (List.range (leAt im (o + 4) 2)).map fun i => takeChan im (o + 0x20 + 16 * i) }

/-- The loaded class A reel and its table. -/
def State.takes (s : State) : Option (Reel × TakeTable) :=
  match s.classA with
  | some r => (takeTable r.image).map fun t => (r, t)
  | none => none

/-- Partition-space address of byte `o` of a channel's area in tick `t` (R296). -/
def TakeTable.addr (t : TakeTable) (c : TakeChan) (tick o : Nat) : Nat :=
  t.ringOff + tick % t.ringTicks * t.tickBytes + c.area + o

/-! ### Channel messages -/

def State.takeMsg (s : State) (ch tick : Nat) : TakeMsg :=
  (s.sched.takes.find? fun m => m.ch = ch && m.tick = tick).getD { ch := ch, tick := tick }

def State.setTake (s : State) (m : TakeMsg) : State :=
  { s with sched := { s.sched with
      takes := (s.sched.takes.filter fun x => !(x.ch = m.ch && x.tick = m.tick)) ++ [m] } }

/-- Every range the channel message holds, from either source. -/
def TakeMsg.all (m : TakeMsg) : List (Nat × Nat) :=
  m.twinGot.foldl (fun l (r : Nat × Nat) => rangeAdd l r.1 r.2) m.got

def TakeMsg.whole (m : TakeMsg) (n : Nat) : Bool := (rangeGaps m.all 0 n).isEmpty

/-- Was every channel message of the tick complete before an instant?  A last byte that lands at a slate's own instant belongs
to the tick that begins there (R10). -/
def State.inputBy (s : State) (tick inst : Nat) : Bool :=
  match s.takes with
  | none => true
  | some (_, t) => t.chans.all fun c => (s.takeMsg c.ch tick).done && decide ((s.takeMsg c.ch tick).doneAt < inst)

/-- Is every channel message of the tick complete? -/
def State.inputDone (s : State) (tick : Nat) : Bool :=
  match s.takes with
  | none => true
  | some (_, t) => t.chans.all fun c => (s.takeMsg c.ch tick).done

/-- Was any channel message of the tick filled? -/
def State.inputFilled (s : State) (tick : Nat) : Bool :=
  s.sched.takes.any fun m => m.tick = tick && m.filled

/-- Ticks that the input ring no longer holds are forgotten. -/
def State.trimTakes (s : State) : State :=
  match s.takes with
  | none => { s with sched := { s.sched with takes := [] } }
  | some (_, t) =>
    { s with sched := { s.sched with takes := s.sched.takes.filter fun m => decide (s.clap.num < m.tick + t.ringTicks) } }

/-- Store bytes of a channel's area for the class A reel. -/
def State.storeTake (s : State) (r : Reel) (t : TakeTable) (c : TakeChan) (tick o : Nat) (bs : Bytes) :
    Option StoreErr × State :=
  s.store { p := r.p, clsA := true } (t.addr c tick o) bs

/-! ### Frames of a take conversation (R296) -/

def rushesBit (f : Frame) : Bool := f.flags.testBit 4
def notHeldBit (f : Frame) : Bool := f.flags.testBit 5

def State.takeRefused (s : State) (q : Nat) (f : Frame) : State :=
  s.fault (pgPort q) 18 f.msg (portInfo 1 0 f.conv f.kind)

/-- Place a TAKE frame, or refuse it. -/
def State.placeTake (s : State) (q : Nat) (f : Frame) : State :=
  match s.classA with
  | none => (s.count (pgPort q) 0x9C 1).raise (pgPort q) 17
  | some r =>
    if r.p ≠ f.part then (s.count (pgPort q) 0x9C 1).raise (pgPort q) 17
    else match takeTable r.image with
      | none => s.takeRefused q f
      | some t =>
        match t.chans.find? fun c => c.ch = f.conv with
        | none => s.takeRefused q f
        | some c =>
          let fromTwin := rushesBit f && s.isTwin f.src
          let n := s.clap.num
          let taken : Bool := decide (r.loadTick ≤ f.msg) && (match r.unloadAt with | some u => decide (f.msg < u) | none => true)
          if !(f.src = c.src || fromTwin) || f.msgLen ≠ c.bytes || decide (f.msg + t.ringTicks < n + 3) || decide (n + 1 < f.msg) || !taken
          then s.takeRefused q f
          -- a frame past MSG_LEN breaks R288 and is not placed
          else if f.msgLen < f.offset + f.payload.length then s
          else
            let m := s.takeMsg f.conv f.msg
            match s.storeTake r t c f.msg f.offset f.payload with
            | (some _, s) => s
            | (none, s) =>
              let m := { m with port := q }
              s.setTake (if f.payload.isEmpty then m
                else if fromTwin && f.src ≠ c.src then { m with twinGot := rangeAdd m.twinGot f.offset f.payload.length }
                else { m with got := rangeAdd m.got f.offset f.payload.length })

/-- A channel message whose bytes are all placed is complete. -/
def State.checkTake (s : State) (ch tick : Nat) : State :=
  match s.takes with
  | none => s
  | some (_, t) =>
    match t.chans.find? fun c => c.ch = ch with
    | none => s
    | some c =>
      let m := s.takeMsg ch tick
      if !m.done && m.whole c.bytes then s.setTake { m with done := true, doneAt := s.now } else s

/-! ### Assembly of messages (R288) -/

/-- Data bytes of a frame and, for MIX, the sub-header's ITEM, MEMBER and closed flag (R305). -/
def Frame.inner (f : Frame) : Bytes := if f.kind = 4 then f.payload.drop 8 else f.payload
def Frame.item (f : Frame) : Nat := if f.kind = 4 then beNat (f.payload.take 2) else 0
def Frame.member (f : Frame) : Nat := if f.kind = 4 then leAt f.payload 2 1 else 0
def Frame.closed (f : Frame) : Bool := f.kind = 4 && (leAt f.payload 3 1).testBit 0

/-- Does the receiver remember the frame's message as complete (R282)? -/
def State.remembered (s : State) (c : Conv) (f : Frame) : Bool :=
  if f.kind = 1 then
    -- a take message belongs to the partition of the class A reel that takes it (R21)
    (match s.classA with | some r => r.p = f.part | none => false) && (s.takeMsg f.conv f.msg).done
  else if f.kind = 6 then s.twin.parkDone.contains (f.part, f.msg)
  else c.doneMsgs.contains (f.msg, f.item)

/-- How many completed messages the kind remembers. -/
def memoryOf (kind : Nat) : Nat := if kind = 3 then 16 else if kind = 5 then 1024 else 65536

/-- A message is complete: it waits for the step that takes it, and is remembered. -/
def State.finishMsg (s : State) (c : Conv) (m : InMsg) : State :=
  let s := { s with links := { s.links with inbox := s.links.inbox ++ [{
    port := c.port, kind := c.kind, conv := c.conv, peer := c.peer, part := c.part, msg := m.msg, item := m.item,
    member := m.member, closed := m.closed, data := m.data, rehearsal := m.rehearsal }] } }
  if c.kind = 6 then
    let mine := s.twin.parkDone.filter fun x => x.1 = c.part
    let rest := s.twin.parkDone.filter fun x => !(x.1 = c.part)
    { s with twin := { s.twin with parkDone := ((c.part, m.msg) :: mine).take 4096 ++ rest } }
  else if c.kind = 4 && c.conv = 0 then s
  else s.modConv c.id fun c => { c with doneMsgs := ((m.msg, m.item) :: c.doneMsgs).take (memoryOf c.kind) }

/-- The message is discarded: PROTO_ERR and MSG_ABANDON. -/
def State.breakMsg (s : State) (c : Conv) (f : Frame) (cur : Option InMsg) : State :=
  let s := (s.protoErr c.port f).fault (pgPort c.port) 26 f.msg (portInfo 6 0 f.conv f.kind)
  let s := s.modConv c.id fun c => { c with cur := cur }
  if f.kind = 1 && !(s.takeMsg f.conv f.msg).done then s.setTake { s.takeMsg f.conv f.msg with got := [] } else s

/-- A frame in its place that starts or continues message `m` (`m.next` is its OFFSET). -/
def State.extendMsg (s : State) (c : Conv) (f : Frame) (m : InMsg) : State :=
  let n := f.inner.length
  let last := f.flags.testBit 1
  let m := { m with next := m.next + n, data := if f.kind = 1 then [] else m.data ++ f.inner }
  if m.msgLen < m.next || last ≠ (m.next = m.msgLen) then
    s.breakMsg c f (if last then none else some { m with bad := true })
  else if last then
    let s := s.modConv c.id fun c => { c with cur := none }
    if f.kind = 1 then s.checkTake f.conv f.msg else s.finishMsg c m
  else s.modConv c.id fun c => { c with cur := some m }

/-- One frame, in SEQ order. -/
def State.consumeFrame (s : State) (c : Conv) (f : Frame) : State :=
  let first := f.flags.testBit 0
  let last := f.flags.testBit 1
  let fresh : InMsg := { msg := f.msg, msgLen := f.msgLen, item := f.item, member := f.member, closed := f.closed }
  if s.remembered c f then s.modConv c.id fun c => { c with cur := none }
  else if f.kind = 1 && rushesBit f then (if notHeldBit f then s else s.checkTake f.conv f.msg)
  else if f.kind = 4 && decide (f.payload.length < 8) then s.breakMsg c f (if last then none else some { fresh with bad := true })
  else match c.cur with
    | none =>
      if first && f.offset = 0 then s.extendMsg c f fresh
      else s.breakMsg c f (if last then none else some { fresh with bad := true })
    | some m =>
      if m.bad then
        if first && f.offset = 0 then s.extendMsg c f fresh
        else if last then s.modConv c.id fun c => { c with cur := none } else s
      else if first then
        -- FIRST out of place ends the message before; the frame opens the next
        let s := s.breakMsg c { f with msg := m.msg } none
        if f.offset = 0 then s.extendMsg c f fresh else s
      else if f.msg = m.msg && f.msgLen = m.msgLen && f.offset = m.next && f.item = m.item && f.member = m.member
          && f.closed == m.closed then s.extendMsg c f m
      else s.breakMsg c f (if last then none else some { m with bad := true })

/-- Take held frames while the next one is there. -/
def State.consumeLoop (s : State) (id fuel : Nat) : State :=
  match fuel with
  | 0 => s
  | fuel + 1 =>
    match s.conv id with
    | none => s
    | some c =>
      match c.held.find? fun f => f.seq = c.seq with
      | none => s
      | some f =>
        let c' := { c with held := c.held.filter fun x => !(x.seq = c.seq), seq := seqAdd c.seq 1 }
        ((s.modConv id fun _ => c').consumeFrame c' f).consumeLoop id fuel

/-- A matching DATA frame of an open responder conversation (R285, R286, R288). -/
def State.takeData (s : State) (q : Nat) (c : Conv) (f : Frame) : State :=
  let d := serial f.seq c.seq
  if d < 0 ∨ (c.held.any fun x => x.seq = f.seq) then (s.count (pgPort q) 0x7C 1).sendAck c.id
  else if (s.creditOf q : Int) ≤ d then (s.count (pgPort q) 0x84 1).sendAck c.id
  else
    let s := if s.remembered c f then s.count (pgPort q) 0x7C 1
             else if f.kind = 1 && !notHeldBit f then s.placeTake q f else s
    let s := s.modConv c.id fun c => { c with held := c.held ++ [f], unacked := c.unacked + 1 }
    let s := s.consumeLoop c.id 65
    if decide (d ≠ 0) || f.flags.testBit 1 || decide (8 ≤ c.unacked + 1) then s.sendAck c.id else s

def execData (f : RxFrame) (s : State) : Out :=
  let q := f.port.val
  .next (s.receive f tyData fun s f => s.toResponder q f (fun s => s.sendReset q f 0 1) fun s c =>
    if !c.matches f then s.stale q
    else ((s.heard c.id).wakeConv q c).takeData q c f)

/-! ### Late and filled channel messages (R297) -/

/-- Port of a channel: the one its grabber's conversation runs on, else the last one it arrived by. -/
def State.takePort (s : State) (c : TakeChan) (m : TakeMsg) : Nat :=
  match s.links.convs.find? fun x => x.kind = 1 && x.conv = c.ch && x.peer = c.src && !x.initiator with
  | some x => x.port
  | none => m.port

/-- One 24-byte entry of a RUSHES message (R302): fields of the wire, so big-endian by R9 (DEDUCED, log entry 83). -/
def rushEntry (tick ch off len : Nat) : Bytes :=
  beBytes 8 tick ++ beBytes 2 ch ++ beBytes 2 0 ++ beBytes 4 off ++ beBytes 4 len ++ beBytes 4 0

/-- One 24-byte entry of a fill map: a continuity content, in its stored little-endian order (R281, R321). -/
def fillEntry (tick ch off len : Nat) : Bytes :=
  leBytes 8 tick ++ leBytes 2 ch ++ leBytes 2 0 ++ leBytes 4 off ++ leBytes 4 len ++ leBytes 4 0

/-- Send entries to the twin on the RUSHES conversation, when it is OPEN. -/
def State.sendRushes (s : State) (data : Bytes) : State :=
  match s.links.convs.find? fun c => c.kind = 5 && c.initiator && c.st = .opn with
  | some c =>
    let n := s.links.rushNum
    ({ s with links := { s.links with rushNum := n + 1 } } : State).sendOn c.id
      { msg := n, total := data.length, data := data }
  | none => s

/-- The channel of the loaded class A reel's table, for a tick that the reel runs. -/
def State.takeChanOf (s : State) (ch tick : Nat) : Option (Reel × TakeTable × TakeChan) :=
  match s.takes with
  | some (r, t) =>
    match t.chans.find? fun c => c.ch = ch with
    | some c => if s.sched.ticks.any fun x => x.tick = tick then some (r, t, c) else none
    | none => none
  | none => none

def execTakeLate (ch tick : Nat) (s : State) : Out :=
  let s := s.begin
  .next (match s.takeChanOf ch tick with
    | none => s
    | some (_, _, c) =>
      let m := s.takeMsg ch tick
      -- complete by slate T + 1 means before its instant (R10)
      if s.clap.num ≠ tick + 1 || (m.done && decide (m.doneAt < s.clap.last)) || m.late then s
      else
        let q := s.takePort c m
        let s := ((s.setTake { m with late := true, port := q }).count (pgPort q) 0xA0 1).raise (pgPort q) 19
        let gaps := rangeGaps m.all 0 c.bytes
        if gaps.isEmpty then s else s.sendRushes (gaps.flatMap fun (g : Nat × Nat) => rushEntry tick ch g.1 g.2))

/-- TAKE_WAIT of a port, in ticks. -/
def State.takeWait (s : State) (q : Nat) : Nat := max 1 (field (s.fo (pgPort q) 0x64) 0 4)

/-- Write the FILL byte into ranges of a channel message, which is then complete (R297, R326). -/
def State.fillRanges (s : State) (r : Reel) (t : TakeTable) (c : TakeChan) (tick : Nat) (gaps : List (Nat × Nat)) : State :=
  let s := gaps.foldl (fun (s : State) (g : Nat × Nat) => (s.storeTake r t c tick g.1 (List.replicate g.2 c.fill)).2) s
  s.setTake { s.takeMsg c.ch tick with done := true, filled := true, doneAt := s.now }

def execTakeFilled (ch tick : Nat) (s : State) : Out :=
  let s := s.begin
  .next (match s.takeChanOf ch tick with
    | none => s
    | some (r, t, c) =>
      let m := s.takeMsg ch tick
      let q := s.takePort c m
      if s.clap.num ≠ tick + 1 + s.takeWait q || m.done || s.twin.role = .double then s
      else
        let gaps := rangeGaps m.all 0 c.bytes
        let s := s.fillRanges r t c tick gaps
        let entries := gaps.flatMap fun (g : Nat × Nat) => fillEntry tick ch g.1 g.2
        let s := { s with sched := { s.sched with ticks := s.sched.ticks.map fun (x : TickRun) =>
          if x.tick = tick then { x with fills := x.fills ++ entries } else x } }
        let s := (s.count (pgPort q) 0xA4 1).fault (pgPort q) 20 tick (portInfo 2 0 ch 1)
        s.faultRec r.p 1 0x0105 0 r.handle 0xFFFF (leBytes 8 tick ++ leBytes 2 ch) false)

/-- The double applies the fill map of a continuity message (R297, R325). -/
def State.applyFills (s : State) (fills : Bytes) (n : Nat) : State :=
  match n with
  | 0 => s
  | n + 1 =>
    let s := match s.takeChanOf (leAt fills 8 2) (leAt fills 0 8) with
      | none => s
      | some (r, t, c) =>
        let tick := leAt fills 0 8
        let o := leAt fills 12 4
        let len := leAt fills 16 4
        let s := (s.storeTake r t c tick o (List.replicate len c.fill)).2
        let m := s.takeMsg c.ch tick
        (s.setTake { m with filled := true, twinGot := rangeAdd m.twinGot o len }).checkTake c.ch tick
    s.applyFills (fills.drop 24) n

/-! ### Rushes answered (R302) -/

/-- A list without its first element that satisfies `f`. -/
def dropFirst {α : Type} (f : α → Bool) (l : List α) : List α :=
  match l with
  | [] => []
  | x :: r => if f x then r else x :: dropFirst f r

/-- The oldest message that waits and satisfies `f`. -/
def State.popInbox (s : State) (f : InBox → Bool) : Option (InBox × State) :=
  match s.links.inbox.find? f with
  | none => none
  | some m =>
    some (m, { s with links := { s.links with inbox := dropFirst f s.links.inbox } })

/-- The own TAKE conversation to the twin for a channel: the open one, or one that opens now. -/
def State.answerConv (s : State) (q ch peer part : Nat) : Option (Nat × State) :=
  match s.findConv q 1 ch peer true with
  | some c => some (c.id, s)
  | none =>
    if 256 ≤ (s.portConvs q).length then none
    else match s.newEpoch (s.pastEpoch q 1 ch peer true) with
      | none => none
      | some (e, s) =>
        let c : Conv := { id := s.links.nextConv, port := q, kind := 1, conv := ch, peer := peer, part := part,
                          initiator := true, st := .opening, epoch := e, sentOpens := 1 }
        some (c.id, (s.addConv c).tx q (s.convFrame c tyOpen))

/-- FLAGS of an answer: RUSHES, and NOT_HELD. -/
def fRushes : Nat := 16
def fNotHeld : Nat := 32

/-- Answer with one message on the TAKE conversation. -/
def State.answer (s : State) (q ch peer part : Nat) (m : OutMsg) : State :=
  match s.answerConv q ch peer part with
  | some (id, s) => s.sendOn id m
  | none => s

/-- A range that is not held. -/
def notHeld (tick off len : Nat) : OutMsg :=
  { msg := tick, flags := fRushes + fNotHeld, off0 := off, total := len, data := [] }

/-- Answer one entry. -/
def State.answerEntry (s : State) (q peer : Nat) (e : Bytes) : State :=
  let tick := beAt e 0 8
  let ch := beAt e 8 2
  let off := beAt e 12 4
  let len := beAt e 16 4
  if ch = 0xFFFF then
    let s := if off = 1 || off = 2 then
        { s with twin := { s.twin with notices := s.twin.notices ++ [(off, tick, len)] } } else s
    s.answer q ch peer 0 (notHeld tick off len)
  else match s.takes with
    | none => s.answer q ch peer 0 (notHeld tick off len)
    | some (r, t) =>
      match t.chans.find? fun c => c.ch = ch with
      | none => s.answer q ch peer r.p (notHeld tick off len)
      | some c =>
        let got := (s.takeMsg ch tick).got
        let s := (rangeHits got off (off + len)).foldl (fun (s : State) (g : Nat × Nat) =>
          match s.load { p := r.p, clsA := true } (t.addr c tick g.1) g.2 with
          | (.ok bs, s) => s.answer q ch peer r.p { msg := tick, flags := fRushes, off0 := g.1, total := c.bytes, data := bs }
          | (.error _, s) => s.abandonSend q 1 ch tick) s
        (rangeGaps got off (off + len)).foldl (fun (s : State) (g : Nat × Nat) =>
          s.answer q ch peer r.p (notHeld tick g.1 g.2)) s

/-- Answer every whole entry of a request. -/
def State.answerEntries (s : State) (q peer : Nat) (d : Bytes) (n : Nat) : State :=
  match n with
  | 0 => s
  | n + 1 => (s.answerEntry q peer (d.take 24)).answerEntries q peer (d.drop 24) n

def execRushes (q : Fin 9) (s : State) : Out :=
  let s := s.begin
  .next (match s.popInbox fun m => m.kind = 5 && m.port = q.val with
    | none => s
    | some (m, s) => s.answerEntries q.val m.peer m.data (m.data.length / 24))

end Sys2Proof.Machine
end

