-- ==== Sys2Proof/Machine/Twin.lean ====
section
/-! DEFINITION. The understudy controller: roles, claims and cue pins (R311–R318), continuity messages and
judgement (R319–R331, R394), cut-over (R332–R336) and the twin's generative sessions (R337–R340). -/
namespace Sys2Proof.Machine

/-! ### Cue pins (R312, R334, R335) -/

/-- Level that each output should have now, bit o. -/
def State.cueTarget (s : State) : Nat :=
  if s.twin.gap then (if s.groupSize ≤ 8 then s.rdn pgTwin 0x58 % 256 else s.twin.gapLevel)
  else (List.range 8).foldl (fun a o => a + b2n (mget (fun _ => false) s.sched.cueLevel o) * 2 ^ o) 0

/-- While the drivers are enabled, the pins take their level. -/
def State.drivePins (s : State) : State :=
  if !s.cueEn then s
  else
    let t := s.cueTarget
    let was := s.twin.pins
    let s := { s with twin := { s.twin with pins := t } }
    (List.range 8).foldl (fun s o =>
      if t.testBit o == was.testBit o then s else s.emit (.pin o (t.testBit o))) s

/-! ### Claims (R314, R315, R318) -/

/-- Conditions of a claim of a kind (1 standing, 2 commanded). -/
def State.claimOk (s : State) (kind : Nat) : Bool :=
  !s.twin.sense &&
  (if kind = 2 then s.twin.role = .none || s.twin.role = .double
   else s.twin.role = .double && s.allowClaim && s.twin.step = .inStep && !s.twin.claimBlock)

/-- Holdoff h, in the model's time unit. -/
def State.holdoff (s : State) : Nat := (s.rdn pgTwin 0x54 % 256 + (if s.boot.slot % 2 = 1 then 30 else 0)) * tUs

/-- A claim whose conditions fail is abandoned; a commanded one is then no longer pending. -/
def State.recheckClaim (s : State) : State :=
  match s.twin.claim with
  | none => s
  | some c =>
    if s.claimOk c.kind then s
    else { s with twin := { s.twin with claim := none, claimPending := s.twin.claimPending && decide (c.kind ≠ 2) } }

/-- The module claims: it drives TAKE and is PRINCIPAL (R315, R331, R333, R334). -/
def State.claimNow (s : State) (kind first : Nat) : State :=
  let levels := (List.range 8).foldl (fun a o => a + b2n (mget (fun _ => false) s.sched.cueLevel o) * 2 ^ o) 0
  let next := s.clap.num + 1
  let s := { s with twin := { s.twin with
    takeEpoch := min (s.twin.takeEpoch + 1) (2 ^ 32 - 1), role := .principal, step := .off, drive := true, claim := none,
    claimPending := false, claimBlock := s.twin.claimBlock && decide (kind ≠ 2), logHeld := false, pubFrom := first,
    restoreAt := some next, claimKind := kind, handoverSeen := 0 } }
  let s := if kind = 3 then s else
    { s with twin := { s.twin with
        cut := s.twin.lastPublished.map fun p => (next, p), gap := s.classALoaded, gapS := some next, gapF := none,
        gapLevel := levels, slow := false } }
  ((s.raise pgTwin 8).count pgTwin 0x7C 1).drivePins

/-- Address of the own GROUP_CFG member index (R306): the module's index in the group. -/
def State.memberIndex (s : State) : Nat := field (s.fo pgGlobal 0x48) 8 6

/-- Endpoints that take a member's contributions: the lead and the lead's twin (R306). -/
def State.mixTargets (s : State) : List Nat :=
  let l := s.leadId :: (match s.clap.leadTwin with | some t => if t = s.leadId then [] else [t] | none => [])
  if s.leadPair then [] else l

/-- Send a contribution of ledger records for (WHEN, ITEM) (R305, R306). -/
def State.sendMix (s : State) (when item : Nat) (data : Bytes) : State :=
  s.mixTargets.foldl (fun s e => s.sendMsg 4 0 e
    { msg := when, item := item, member := s.memberIndex, total := data.length, data := data }) s

/-- A claiming double sends the contributions of the ticks after JUDGED (R336). -/
def State.sendKept (s : State) : State :=
  (s.twin.keptMix.filter fun k => decide (s.twin.judged < k.1)).foldl (fun s k => s.sendMix k.1 k.2.1 k.2.2) s

/-! ### The line (R312, R314, R315) -/

def execTakeReleaseSensed (inst : Nat) (s : State) : Out :=
  let s := s.begin.at inst
  .next (if !s.twin.sense then s
    else
      let s := { s with twin := { s.twin with sense := false, highAt := inst } }
      let s := s.raiseIf (s.twin.role = .double) pgTwin 10
      if s.twin.drive then s
      else if s.twin.claimPending then { s with twin := { s.twin with claim := some { kind := 2, since := inst } } }
      else if s.claimOk 1 then { s with twin := { s.twin with claim := some { kind := 1, since := inst } } }
      else s)

def execTakeSenseLow (s : State) : Out :=
  let s := s.begin
  .next (if s.twin.sense then s
    else ({ s with twin := { s.twin with sense := true, fault := false } } : State).recheckClaim.drivePins)

def execClaimHoldoffExpiry (inst : Nat) (s : State) : Out :=
  let s := s.begin.at inst
  .next (match s.twin.claim with
    | none => s
    | some c =>
      if inst < c.since + s.holdoff then s
      else if s.claimOk c.kind then
        let double := s.twin.role = .double
        let s := s.claimNow c.kind (s.clap.num + 1)
        if double then s.sendKept else s
      else s.recheckClaim)

/-- Driven and sensed high for more than 1 µs. -/
def execTakeFault (s : State) : Out :=
  let s := s.begin
  .next (if s.twin.drive && !s.twin.sense && !s.twin.fault then
      ({ s with twin := { s.twin with fault := true } } : State).fault pgTwin 11 s.clap.num 1
    else s)

def execGrave (k : GraveKind) (s : State) : Out := .next (s.begin.graveDiag k)

/-! ### Commands (R318) -/

/-- STAND and TAKE are refused while PAIRED is 1 under STRAP_ERR (R413). -/
def State.strapBars (s : State) : Bool := s.boot.strapErr && s.paired

def State.handoverReg (s : State) : Nat := s.rd64 pgTwin 0x5C

/-- Condition of the command at bit b: at the write, and again when it acts (of HANDOVER's three ticks, at the
write only). -/
def State.cmdOk (s : State) (b : Nat) (atWrite : Bool) : Bool :=
  let t := s.twin
  match b with
  | 0 => (t.role = .none || t.role = .double) && !s.strapBars
  | 1 => (t.role = .none || t.role = .yielded) && s.paired && !s.strapBars
  | 2 => t.role = .principal
  | 3 => t.role = .principal && decide (s.clap.num + (if atWrite then 3 else 1) ≤ s.handoverReg)
  | 4 => t.role = .double
  | 5 => t.handover && decide (s.clap.num < t.handoverAt)
  | _ => t.claimPending

/-- TAKE acts at once: pending while the line is low, in its holdoff while it is high (R318). -/
def State.cmdTake (s : State) : State :=
  if s.twin.sense then { s with twin := { s.twin with claimPending := true } }
  else match s.twin.claim with
    | some { kind := 2, .. } => s
    | _ => { s with twin := { s.twin with claim := some { kind := 2, since := s.now } } }

/-- CANCEL_TAKE acts at once. -/
def State.cmdCancelTake (s : State) : State :=
  { s with twin := { s.twin with
      claimPending := false
      claim := match s.twin.claim with
        | some c => if c.kind = 2 then none else some c
        | none => none } }

/-- A slate command acts. -/
def State.cmdAct (s : State) (b : Nat) : State :=
  if !s.cmdOk b false then s.refuse pgTwin
  else match b with
    | 1 =>
      let s := s.setRole .double
      { s with twin := { s.twin with step := if s.classALoaded then .syncing else .off, grave := false, graveCode := 0,
                                     okTick := none, validTo := none, unjudgedRun := 0 } }
    | 2 =>
      let s := s.releaseTake.setRole .double
      { s with twin := { s.twin with step := .syncing, handover := false, gap := false, okTick := none, validTo := none,
                                     unjudgedRun := 0 } }
    | 3 => { s with twin := { s.twin with handover := true, handoverAt := s.handoverReg } }
    | 4 => { s with twin := { s.twin with claimBlock := false, step := .syncing, resyncPend := true, logHeld := false } }
    | _ => { s with twin := { s.twin with handover := false } }

/-- A write of TWIN_CMD: the lowest bit acts. -/
def State.twinCmd (s : State) (v : Word) : State :=
  match (List.range 7).find? fun b => bit v b with
  | none => s
  | some b =>
    if !s.cmdOk b true then (if b = 0 then s.raise pgTwin 24 else s.refuse pgTwin)
    else if b = 0 then s.cmdTake
    else if b = 6 then s.cmdCancelTake
    else if s.slatesOn then
      let t := s.twin
      { s with twin := match b with
          | 1 => { t with standReq := true }
          | 2 => { t with yieldReq := true }
          | 3 => { t with handoverReq := true }
          | 4 => { t with resyncReq := true }
          | _ => { t with cancelHoReq := true } }
    else (s.cmdAct b).recheckClaim

/-- Commands that waited for the slate. -/
def State.cmdsAtSlate (s : State) : State :=
  let t := s.twin
  let s := { s with twin := { t with standReq := false, yieldReq := false, handoverReq := false, resyncReq := false,
                                     cancelHoReq := false } }
  let s := if t.standReq then s.cmdAct 1 else s
  let s := if t.yieldReq then s.cmdAct 2 else s
  let s := if t.handoverReq then s.cmdAct 3 else s
  let s := if t.resyncReq then s.cmdAct 4 else s
  if t.cancelHoReq then s.cmdAct 5 else s

def State.writeTwinCmd (s : State) (b : Nat) : State :=
  s.begin.gated pgTwin 0x44 (word (2 ^ b)) fun s w => s.twinCmd w

def execTake (s : State) : Out := .next (s.writeTwinCmd 0)
def execStand (s : State) : Out := .next (s.writeTwinCmd 1)
def execYieldTake (s : State) : Out := .next (s.writeTwinCmd 2)
def execHandover (s : State) : Out := .next (s.writeTwinCmd 3)
def execResync (s : State) : Out := .next (s.writeTwinCmd 4)
def execCancelHandover (s : State) : Out := .next (s.writeTwinCmd 5)
def execCancelTake (s : State) : Out := .next (s.writeTwinCmd 6)

/-! ### The state table (R322) -/

structure StateArea where
  vcell : Nat
  off : Nat
  len : Nat
  deriving DecidableEq, Repr

def stateMagic : Nat := 0x54415453

/-- Image offset of the state table of a class A reel. -/
def stateOff (im : Bytes) : Nat :=
  match takeTable im with
  | none => constOff im
  | some t => constOff im + roundUp (0x20 + 16 * t.chans.length) 64

def stateHorizon (im : Bytes) : Nat := leAt im (stateOff im + 8) 4

def stateAreas (im : Bytes) : List StateArea :=
  let o := stateOff im
  if leAt im o 4 ≠ stateMagic then []
  else (List.range (leAt im (o + 4) 2)).map fun i =>
    let e := o + 16 + 16 * i
    { vcell := leAt im e 2, off := leAt im (e + 4) 4, len := leAt im (e + 8) 4 }

/-- Page of a class A reel's virtual cell. -/
def Reel.cellPage (r : Reel) (v : Nat) : Nat := pgPrime (r.cells.getD v 0)

/-- The STATE section as the cells hold it now (R321). -/
def State.stateBytes (s : State) (r : Reel) : Bytes :=
  (stateAreas r.image).flatMap fun a => mgetMany memDefault (s.unit (r.cellPage a.vcell)).can a.off a.len

/-- Install a STATE section (R327). -/
def State.installAreas (s : State) (r : Reel) (as : List StateArea) (b : Bytes) : State :=
  match as with
  | [] => s
  | a :: rest =>
    (s.modUnit (r.cellPage a.vcell) fun u => { u with can := msetMany memDefault u.can a.off (fitBytes a.len (b.take a.len)) }).installAreas
      r rest (b.drop a.len)

/-- The tick digest (R323). -/
def TickRun.sum (t : TickRun) : Bytes :=
  sha3 (leBytes 8 t.tick ++ leBytes 4 t.count ++ t.dets ++ t.cues ++ t.state)

def State.tickRun (s : State) (n : Nat) : Option TickRun := s.sched.ticks.find? fun t => t.tick = n

def State.modTick (s : State) (n : Nat) (f : TickRun → TickRun) : State :=
  { s with sched := { s.sched with ticks := s.sched.ticks.map fun (t : TickRun) => if t.tick = n then f t else t } }

/-! ### Cue queues (R53) -/

/-- Place the edges of a CUE section, entry by entry. -/
def State.placeEdges (s : State) (tick : Nat) (b : Bytes) (n : Nat) : State :=
  match n with
  | 0 => s
  | n + 1 =>
    let o := leAt b 0 1 % 8
    let q := mget (fun _ => []) s.sched.cues o
    let e : Cue := { level := (leAt b 1 1).testBit 0, slate := leAt b 8 8, off := leAt b 4 4, tick := tick }
    let s := if 1024 ≤ q.length then s
      else { s with sched := { s.sched with cues := mset (fun _ => []) s.sched.cues o (q ++ [e]) } }
    s.placeEdges tick (b.drop 16) n

/-- Edges of one tick leave the queues. -/
def State.dropTickEdges (s : State) (tick : Nat) : State :=
  { s with sched := { s.sched with cues := (List.range 8).foldl (fun m o =>
      mmod (fun _ => ([] : List Cue)) m o fun q => q.filter fun e => !(e.tick = tick)) s.sched.cues } }

/-- Place a tick's edges, once. -/
def State.placeTick (s : State) (t : TickRun) (cues : Bytes) : State :=
  (s.dropTickEdges t.tick).placeEdges t.tick cues (cues.length / 16)

/-! ### Sending continuity messages (R319–R321) -/

def contMagic : Nat := 0x544E4F43

def padTo16 (b : Bytes) : Bytes := b ++ List.replicate (roundUp b.length 16 - b.length) 0

/-- One message; sections at multiples of 16. -/
def contBytes (hdr0 digest state fill cue ctx : Bytes) : Bytes :=
  let o1 := 192
  let o2 := o1 + roundUp state.length 16
  let o3 := o2 + roundUp fill.length 16
  let o4 := o3 + roundUp cue.length 16
  hdr0 ++ fitBytes 64 digest
    ++ leBytes 4 o1 ++ leBytes 4 state.length ++ leBytes 4 o2 ++ leBytes 4 fill.length
    ++ leBytes 4 o3 ++ leBytes 4 cue.length ++ leBytes 4 o4 ++ leBytes 4 ctx.length
    ++ leBytes 32 0 ++ padTo16 state ++ padTo16 fill ++ padTo16 cue ++ padTo16 ctx

/-- Bytes 0x00 to 0x3F of the header. -/
def State.contHead (s : State) (tick flags : Nat) (r : Option Reel) : Bytes :=
  leBytes 4 contMagic ++ leBytes 2 1 ++ leBytes 2 flags ++ leBytes 8 tick ++ leBytes 4 s.twin.takeEpoch
  ++ leBytes 2 (match r with | some r => r.handle | none => 0xFFFF) ++ leBytes 1 (match r with | some r => r.p | none => 0)
  ++ leBytes 1 (lowBits 8 s.power.tickTj) ++ fitBytes 8 (match r with | some r => r.reelDigest.take 8 | none => [])
  ++ leBytes 8 s.twin.published ++ leBytes 8 (if s.twin.handover then s.twin.handoverAt else 0)
  ++ leBytes 4 s.power.loadSig ++ leBytes 1 s.power.tickLevel ++ leBytes 11 0

/-- Descriptors for the CTX section: at most 1,024, the rest wait. -/
def State.takeCtx (s : State) : Bytes × State :=
  let now := s.twin.ctxDue.take 1024
  let later := s.twin.ctxDue.drop 1024
  (now.flatMap fun i => (s.desc i).bytes ((s.ctxOwner i).getD 0),
   ({ s with twin := { s.twin with ctxDue := later } } : State).count pgCont 0x114 later.length)

/-- Put a continuity message on the CONT conversation, unless a rehearsal holds it back (R403). -/
def State.sendCont (s : State) (tick : Nat) (reh : Bool) (b : Bytes) : State :=
  if s.reh.contHold then
    let e := mget (fun _ => 0) s.reh.timeEntry 6
    let s := { s with reh := { s.reh with contHold := false } }
    (s.raiseWith pgTwin evRehearsal true false).injectOutcome e 6 1
  else (s.wr pgCont 0x108 (word b.length)).sendMsg 3 0 s.partnerId
    { msg := tick, flags := 8 * b2n reh, total := b.length, data := b }

/-- Fill ranges beyond the allowance of 384 bytes a channel (R321). -/
def fillOver (r : Reel) (t : TickRun) : Bool :=
  match takeTable r.image with
  | some k => decide (384 * k.chans.length < t.fills.length)
  | none => false

/-- The continuity message of tick N, when its last item has completed (R319). -/
def State.contSend (s : State) (n : Nat) : State :=
  if s.twin.role ≠ .principal || !s.paired || s.sched.breakAt.isSome then s
  else match s.tickRun n, s.classA with
    | some t, some r =>
      let cut := fillOver r t
      let (ctx, s) := s.takeCtx
      let s := if cut then s.count pgCont 0x118 1 else s
      let b := contBytes (s.contHead n (2 * b2n cut + 4 * b2n t.rehearsal) (some r)) t.digest t.state
                (if cut then [] else t.fills) t.cues ctx
      s.sendCont n t.rehearsal b
    | _, _ => s

/-- The message of a slate without a class A reel (R319). -/
def State.contNoReel (s : State) : State :=
  if s.twin.role ≠ .principal || !s.paired || s.classALoaded || decide (s.clap.num < 2) then s
  else
    let (ctx, s) := s.takeCtx
    s.sendCont (s.clap.num - 2) false (contBytes (s.contHead (s.clap.num - 2) 1 none) [] [] [] [] ctx)

/-! ### Divergence (R331, R400) -/

/-- What a module knows of the other side of a divergence. -/
structure Other where
  tj : Nat
  load : Nat
  level : Nat
  lo : Nat
  hi : Nat
  deriving DecidableEq, Repr

/-- Latch the log, count, raise and record a divergence of tick t. -/
def State.logDivergence (s : State) (t : TickRun) (o : Other) : State :=
  let own8 := t.digest.take 8
  let s := if s.twin.logHeld then s
    else
      let s := { s with twin := { s.twin with logHeld := true, divTick := t.tick } }
      let s := (s.wr pgTwin 0x98 (word (lowBits 8 t.tj + o.tj * 256))).wr pgTwin 0x9C (word (t.lvl % 16 + o.level % 16 * 16))
      let s := (s.wr pgTwin 0xA0 (word t.load)).wr pgTwin 0xA4 (word o.load)
      let s := (s.wr pgTwin 0xA8 (word (leAt own8 0 4))).wr pgTwin 0xAC (word (leAt own8 4 4))
      (s.wr pgTwin 0xB0 (word o.lo)).wr pgTwin 0xB4 (word o.hi)
  let s := (s.count pgTwin 0x8C 1).fault pgTwin 16 t.tick 2
  s.note { tick := t.tick, kind := 2, info := leBytes 1 (lowBits 8 t.tj) ++ leBytes 1 o.tj
    ++ leBytes 1 (t.lvl % 16 + o.level % 16 * 16) ++ leBytes 1 (roleNo s.twin.role) ++ leBytes 4 t.load ++ leBytes 4 o.load
    ++ own8.take 4 }

/-- A DIVERGED verdict at the double. -/
def State.diverge (s : State) (t : TickRun) (m : ContMsg) : State :=
  let off : Bool := s.twin.step = .off
  let s := { s with twin := { s.twin with claimBlock := true, unjudgedRun := 0, step := if off then .off else .diverged } }
  let s := s.logDivergence t { tj := m.tj, load := m.loadSig, level := m.level, lo := leAt m.digest 0 4, hi := leAt m.digest 4 4 }
  s.sendRushes (rushEntry t.tick 0xFFFF 1 (leAt t.digest 0 4))

/-! ### Accepting continuity messages (R326, R328, R339) -/

/-- Store CTX descriptors in the twin table. -/
def State.storeCtx (s : State) (b : Bytes) (n : Nat) : State :=
  match n with
  | 0 => s
  | n + 1 =>
    let e := b.take 256
    let d := Desc.parse e
    let newer := match mget (fun _ => none) s.twin.table d.index with
      | some (_, x) => decide (x.ver < d.ver)
      | none => true
    let s := if !newer then s
      else { s with twin := { s.twin with table := mset (fun _ => none) s.twin.table d.index (some (descPart e, d)) } }
    s.storeCtx (b.drop 256) n

/-- Section k (0 STATE, 1 FILL, 2 CUE, 3 CTX) of a message. -/
def contSection (b : Bytes) (k : Nat) : Bytes := (b.drop (leAt b (0x80 + 8 * k) 4)).take (leAt b (0x84 + 8 * k) 4)

def contMsg (b : Bytes) : ContMsg :=
  { tick := leAt b 8 8, flags := leAt b 6 2, epoch := leAt b 0x10 4, published := leAt b 0x20 8, handoverAt := leAt b 0x28 8,
    tj := leAt b 0x17 1, loadSig := leAt b 0x30 4, level := leAt b 0x34 1, digest := (b.drop 0x40).take 64,
    state := contSection b 0, fills := contSection b 1, cues := contSection b 2 }

/-- Does the message name the double's class A reel, or none when it has none? -/
def State.contReel (s : State) (b : Bytes) : Bool :=
  match s.classA with
  | some r => !(leAt b 6 2).testBit 0 && (b.drop 0x18).take 8 = r.reelDigest.take 8
  | none => (leAt b 6 2).testBit 0

/-- An accepted message. -/
def State.contAccept (s : State) (b : Bytes) : State :=
  let m := contMsg b
  let t := s.twin
  let s := { s with twin := { t with
    takeEpoch := max t.takeEpoch m.epoch, lastPublished := some m.published,
    handoverSeen := if m.handoverAt ≠ 0 then m.handoverAt else t.handoverSeen } }
  let s := (s.wr pgCont 0x108 (word b.length)).contDone m.tick
  let ctx := contSection b 3
  let s := s.storeCtx ctx (ctx.length / 256)
  let s := if m.flags.testBit 1 then s.count pgCont 0x118 1 else s
  if m.flags.testBit 0 then s
  else if m.tick + 2 ≤ s.clap.num then
    let s := s.count pgTwin 0x78 1
    match s.tickRun m.tick with
    | some r => if r.valid && m.fills.isEmpty && !m.flags.testBit 1 && decide (r.digest ≠ m.digest) then s.diverge r m else s
    | none => s
  else
    let s := s.applyFills m.fills (m.fills.length / 24)
    { s with twin := { s.twin with msgs := s.twin.msgs ++ [m] } }

def execContMessage (inst : Nat) (s : State) : Out :=
  let s := s.begin.at inst
  .next (match s.popInbox fun m => m.kind = 3 with
    | none => s
    | some (m, s) =>
      let b := m.data
      if s.twin.role ≠ .double || leAt b 0 4 ≠ contMagic || leAt b 4 2 ≠ 1 then s
      else if !s.contReel b then s.fault pgTwin 18 (leAt b 8 8) 4
      else if leAt b 0x10 4 < s.twin.takeEpoch then s
      else s.contAccept b)

/-! ### Judgement (R325, R326, R329) -/

/-- Is the own shadow of tick t valid, apart from the message? -/
def State.shadowOk (s : State) (t : TickRun) : Bool :=
  let inherited := match s.twin.validTo with | some v => decide (t.tick ≤ v) | none => false
  t.complete && !t.dead &&
  (inherited || (!t.rehearsal && s.inputDone t.tick && !s.inputFilled t.tick && s.twin.okTick = some (t.tick - 1) && decide (0 < t.tick)))

def State.missMax (s : State) : Nat := max 1 (field (s.rd pgTwin 0x40) 20 4)

/-- MATCH or INSTALL. -/
def State.goodVerdict (s : State) (n : Nat) : State :=
  let up := s.twin.step = .syncing || s.twin.step = .astray
  let s := { s with twin := { s.twin with judged := n, okTick := some n, unjudgedRun := 0
                                          step := if up then .inStep else s.twin.step } }
  s.raiseIf up pgTwin 14

/-- UNJUDGED or LOST. -/
def State.missVerdict (s : State) (n : Nat) (lost : Bool) : State :=
  let run := if lost then 0 else s.twin.unjudgedRun + 1
  let astray := s.twin.step = .inStep && (lost || decide (s.missMax ≤ run))
  let s := { s with twin := { s.twin with unjudgedRun := run, okTick := if lost then s.twin.okTick else some n
                                          step := if astray then .astray else s.twin.step } }
  ((s.count pgTwin 0x74 1).raise pgTwin 17).raiseIf astray pgTwin 15

/-- A state break ends when a double's judgement installs (R394, R395). -/
def State.mendBreak (s : State) (r : Reel) (n : Nat) : State :=
  if s.sched.breakAt.isNone then s
  else ({ s with sched := { s.sched with breakAt := none } } : State).faultRec r.p 1 0x0107 0 r.handle 0xFFFF (leBytes 8 (n + 1)) false

/-- The verdict on tick t: 1 MATCH, 2 DIVERGED, 3 INSTALL, 4 UNJUDGED, 5 LOST. -/
def State.judgeTick (s : State) (r : Reel) (t : TickRun) : State :=
  let msg := s.twin.msgs.find? fun m => m.tick = t.tick
  let ok := s.shadowOk t
  match msg with
  | some m =>
    let ok := ok && m.fills.isEmpty && !m.flags.testBit 1
    if !ok || s.twin.resyncPend then
      let s := s.installAreas r (stateAreas r.image) m.state
      let s := s.placeTick t m.cues
      let s := ({ s with twin := { s.twin with resyncPend := false } } : State).count pgTwin 0x70 1
      ((s.goodVerdict t.tick).mendBreak r t.tick).modTick t.tick fun t => { t with verdict := 3, valid := ok }
    else if t.digest = m.digest then
      ((s.placeTick t t.cues).count pgTwin 0x6C 1).goodVerdict t.tick |>.modTick t.tick fun t => { t with verdict := 1, valid := true }
    else
      let s := (s.placeTick t t.cues).diverge t m
      ({ s with twin := { s.twin with okTick := some t.tick } } : State).modTick t.tick fun t => { t with verdict := 2, valid := true }
  | none =>
    if ok then ((s.placeTick t t.cues).missVerdict t.tick false).modTick t.tick fun t => { t with verdict := 4, valid := true }
    else
      let s := if t.complete then s.placeTick t t.cues else s
      (s.missVerdict t.tick true).modTick t.tick fun t => { t with verdict := 5 }

/-- In the guard of slate N+2 the double judges tick N. -/
def State.judgeAtSlate (s : State) : State :=
  let n := s.clap.num - 2
  let double : Bool := s.twin.role = .double
  let s := match s.classA, s.tickRun n with
    | some r, some t => if double && decide (2 ≤ s.clap.num) && t.verdict = 0 then s.judgeTick r t else s
    | _, _ => s
  { s with twin := { s.twin with msgs := s.twin.msgs.filter fun m => decide (n < m.tick) } }

/-- STEP is SYNCING from the load of a class A reel, OFF without one (R329). -/
def State.stepForReel (s : State) : State :=
  if s.twin.role ≠ .double then s
  else if !s.classALoaded then { s with twin := { s.twin with step := .off } }
  else if s.twin.step = .off then { s with twin := { s.twin with step := .syncing, unjudgedRun := 0, okTick := none } }
  else s

/-! ### Notices (R331, R337) -/

/-- The oldest notice of a kind. -/
def State.popNotice (s : State) (k : Nat) : Option ((Nat × Nat) × State) :=
  match s.twin.notices.find? fun (x : Nat × Nat × Nat) => x.1 = k with
  | none => none
  | some (_, t, v) =>
    some ((t, v), { s with twin := { s.twin with notices := dropFirst (fun (x : Nat × Nat × Nat) => x.1 = k) s.twin.notices } })

/-- The figures of the double that a notice does not carry are free values (R331). -/
def execVerdictNotice (s : State) : Out :=
  let s := s.begin
  .next (match s.popNotice 1 with
    | none => s
    | some ((n, lo), s) =>
      if s.twin.role ≠ .principal then s
      else
        let (a, s) := s.draw
        let (b, s) := s.draw
        let (c, s) := s.draw
        s.logDivergence ((s.tickRun n).getD { tick := n, p := 0, handle := 0 })
          { tj := Config.freeNat a % 256, load := Config.freeNat b % 2 ^ 30, level := Config.freeNat c % 16, lo := lo, hi := 0 })

def execBindingNotice (s : State) : Out :=
  let s := s.begin
  .next (match s.popNotice 2 with
    | none => s
    | some ((_, v), s) =>
      if s.twin.role ≠ .principal then s else { s with twin := { s.twin with bindMap := v % 65536 } })

/-- Partitions enabled and bound here, bit p. -/
def State.boundMap (s : State) : Nat :=
  (List.range 16).foldl (fun a p => a + b2n ((s.part p).enabled && (s.part p).bound) * 2 ^ p) 0

/-- The double's binding notice at a slate. -/
def State.noticeAtSlate (s : State) : State :=
  let opn := s.links.convs.any fun c => c.kind = 5 && c.initiator && c.st = .opn
  if s.twin.role ≠ .double || !opn then { s with twin := { s.twin with bindSent := none } }
  else
    let m := s.boundMap
    let due := (match s.twin.bindSent with | some (x, _) => decide (x ≠ m) | none => true) || s.clap.num % 1024 = 0
    if due then
      ({ s with twin := { s.twin with bindSent := some (m, s.clap.num) } } : State).sendRushes (rushEntry s.clap.num 0xFFFF 2 m)
    else s

/-! ### Park granules (R157, R338) -/

/-- Bytes of a park granule. -/
def parkGran : Nat := 65536

/-- Granules in use of partition p's quota, rising. -/
def State.parkUsed (s : State) (p : Nat) : List (Nat × Nat) :=
  (mget (fun _ => []) s.stores.parkUse p).foldl (fun l (r : Nat × Nat × Nat) => rangeAdd l r.1 r.2.1) []

/-- Free places for `n` granules of p's park quota (R157): the spec leaves the choice among them open, so it is a free value. -/
def State.parkAlloc (s : State) (p n key : Nat) : Option (Nat × State) :=
  let room : Bool := decide (sumNat ((s.parkUsed p).map fun (g : Nat × Nat) => g.2) + n ≤ s.rdn (pgPart p) 0x50)
  let gaps := (rangeGaps (s.parkUsed p) 0 (s.pkSize p / parkGran)).filter fun (g : Nat × Nat) => room && decide (n ≤ g.2)
  let (k, s) := s.draw
  match gaps[Config.freeNat k % max 1 gaps.length]? with
  | none => none
  | some (o, m) =>
    let first := o + Config.freeNat k % (m - n + 1)
    some (first, { s with stores := { s.stores with
      parkUse := mmod (fun _ => []) s.stores.parkUse p fun l => l ++ [(first, n, key)] } })

/-- Free what an index holds. -/
def State.parkFree (s : State) (p key : Nat) : State :=
  { s with stores := { s.stores with
      parkUse := mmod (fun _ => []) s.stores.parkUse p fun l => l.filter fun (r : Nat × Nat × Nat) => !(r.2.2 = key) } }

/-- Physical park address of a granule of p's quota. -/
def State.granPpa (s : State) (p g : Nat) : Nat := s.pkBase p + g * parkGran

/-! ### The double's images (R338) -/

/-- Key under which the image of the twin's context i holds granules. -/
def twinKey (i : Nat) : Nat := i + 2 ^ 20

def State.ckptDrop (s : State) : State := (s.count pgCont 0x128 1).raise pgTwin 25

def State.dropImage (s : State) (p i : Nat) : State :=
  (({ s with twin := { s.twin with images := mset (fun _ => none) s.twin.images i none } } : State)).parkFree p (twinKey i)

/-- Store the image of a context at the double. -/
def State.storeImage (s : State) (p i kind ver : Nat) (img : Bytes) : State :=
  let s0 := s
  let s := s.dropImage p i
  let n := ceilDiv img.length parkGran
  match s.parkAlloc p n (twinKey i) with
  | none => s0.ckptDrop
  | some (first, s) =>
    let s := (s.storePark p ckptUnit (s.granPpa p first) img).2
    let t : TwinImage := { part := p, first := first, gran := n, kind := kind, ver := ver }
    ({ s with twin := { s.twin with images := mset (fun _ => none) s.twin.images i (some t) } } : State).ckptDone img.length

/-- Bytes of a stored image. -/
def State.imageBytes (s : State) (t : TwinImage) : Bytes := s.rawPark (s.granPpa t.part t.first) (t.gran * parkGran)

/-- A checkpoint merged into the image before it, block by block; none when blocks before FIRST_BLOCK are missing. -/
def mergeCkpt (old : Option Bytes) (b : Bytes) : Option Bytes :=
  let d := Desc.parse (b.take 256)
  let fb := leAt b 0x100 4
  let keep := fb * d.lg * d.slotBytes
  match old with
  | none => if fb = 0 then some b else none
  | some o =>
    if leAt o 16 4 < fb * 64 then none
    else some (b.take 4096 ++ fitBytes keep (o.drop 4096) ++ b.drop 4096)

/-- A PARK message of a kind at the double. -/
def State.parkMsg (s : State) (kind : Nat) (f : State → InBox → Nat → State) : State :=
  match s.popInbox fun m => m.kind = 6 && m.msg / 2 ^ 24 % 16 = kind with
  | none => s
  | some (m, s) =>
    if s.twin.role ≠ .double then s
    else if !(s.part m.part).enabled || !(s.part m.part).bound then s.ckptDrop
    else f s m (m.msg % 2 ^ 20)

def execCheckpoint (s : State) : Out :=
  .next (s.begin.parkMsg 1 fun s m i =>
    let old := (mget (fun _ => none) s.twin.images i).map s.imageBytes
    match mergeCkpt old m.data with
    | none => s.ckptDrop
    | some img => s.storeImage m.part i 1 (m.msg / 2 ^ 32) img)

def execParkImage (s : State) : Out :=
  .next (s.begin.parkMsg 2 fun s m i => s.storeImage m.part i 2 (m.msg / 2 ^ 32) m.data)

def execCheckpointRelease (s : State) : Out :=
  .next (s.begin.parkMsg 3 fun s m i => (s.dropImage m.part i).ckptDone 0)

/-! ### The principal's checkpoints (R337, R338) -/

/-- Does the principal checkpoint partition p? -/
def State.ckptsFor (s : State) (p : Nat) : Bool :=
  s.paired && s.twin.role = .principal && (s.part p).bound && s.twin.bindMap.testBit p

/-- A context is due for a PARK message of a kind; a RELEASE that waits still goes out, before what follows it. -/
def State.wantCkpt (s : State) (p i kind : Nat) : State :=
  if !s.ckptsFor p then s
  else
    let q := s.twin.ckptQueue.filter fun (x : Nat × Nat × Nat) => !(x.1 = p && x.2.1 = i && (kind = 3 || x.2.2 ≠ 3))
    let pos := if kind = 3 then mset (fun _ => 0) s.twin.ckptPos i 0 else s.twin.ckptPos
    { s with twin := { s.twin with ckptQueue := q ++ [(p, i, kind)], ckptPos := pos } }

/-- First byte of cache blocks b0 to b1 − 1 of every pair, in slot order (R152). -/
def State.blockBytes (s : State) (p : Nat) (d : Desc) (b0 b1 : Nat) : Except StoreErr Bytes × State :=
  s.load { p := p, unit := ckptUnit } (d.cacheAddr + b0 * d.lg * d.slotBytes) ((b1 - b0) * d.lg * d.slotBytes)

/-- The 4 KiB head of an image. -/
def imageHead (d : Desc) (p fb : Nat) : Bytes := fitBytes 4096 (d.bytes p ++ leBytes 4 fb)

/-- Payload of one PARK message; none where the store refuses it. -/
def State.ckptPayload (s : State) (p i kind : Nat) : Option Bytes × State :=
  let d := s.desc i
  if kind = 3 then (some [], s)
  else if kind = 2 then
    match s.loadPark p ckptUnit (s.granPpa p d.parkFirst) (4096 + ceilDiv d.pos 64 * d.lg * d.slotBytes) with
    | (.ok b, s) => (some b, s)
    | (.error _, s) => (none, s)
  else
    let fb := mget (fun _ => 0) s.twin.ckptPos i / 64
    match s.blockBytes p d fb (ceilDiv d.pos 64) with
    | (.ok b, s) => (some (imageHead d p fb ++ b), { s with twin := { s.twin with ckptPos := mset (fun _ => 0) s.twin.ckptPos i d.pos } })
    | (.error _, s) => (none, s)

/-- CKPT_RATE in force, in GB/s. -/
def State.ckptRate (s : State) : Nat := min 25 (max 1 (field (s.fo pgCont 0x100) 0 5))
def State.ckptBlocks (s : State) : Nat := max 1 (field (s.fo pgCont 0x100) 16 4)

/-- At each slate the principal sends waiting PARK messages, within CKPT_RATE. -/
def State.sendCkpts (s : State) (n : Nat) : State :=
  match n with
  | 0 => s
  | n + 1 =>
    if s.ckptRate * 1000 * s.periodUs ≤ s.twin.ckptDebt then s
    else match s.twin.ckptQueue with
      | [] => s
      | (p, i, kind) :: rest =>
        match s.links.convs.find? fun c => c.kind = 6 && c.conv = p && c.initiator && c.st = .opn with
        | none => s
        | some c =>
          let s := { s with twin := { s.twin with ckptQueue := rest } }
          if !s.ckptsFor p then s.sendCkpts n
          else match s.ckptPayload p i kind with
            | (none, s) => (s.abandonSend c.port 6 p i).sendCkpts n
            | (some b, s) =>
              let s := { s with twin := { s.twin with ckptDebt := s.twin.ckptDebt + b.length } }
              (s.sendOn c.id { msg := i + kind * 2 ^ 24 + (s.desc i).ver * 2 ^ 32, total := b.length, data := b }).sendCkpts n

def State.ckptsAtSlate (s : State) : State :=
  let s := { s with twin := { s.twin with ckptDebt := s.twin.ckptDebt - s.ckptRate * 1000 * s.periodUs } }
  s.sendCkpts s.twin.ckptQueue.length

/-! ### Cut-over (R332–R335, R340, R408) -/

def State.noteCut (s : State) (gap at' : Nat) : State :=
  s.note { tick := s.clap.num, kind := 7, info := leBytes 4 s.twin.takeEpoch ++ leBytes 1 s.twin.claimKind ++ leBytes 1 gap
    ++ leBytes 2 0 ++ leBytes 8 at' }

/-- Slate H at the double: does it proceed? -/
def State.proceeds (s : State) : Bool :=
  let h := s.clap.num
  s.twin.role = .double && s.twin.sense && s.twin.step = .inStep && s.allowClaim && !s.twin.claimBlock
    && decide (0 < h) && s.twin.handoverSeen = h
    && (match s.tickRun (h - 2) with | some t => t.verdict = 1 | none => false)

/-- `low`: the old principal senses TAKE low after its release (R332). -/
def execHandoverSlate (low : Bool) (s : State) : Out :=
  let s := s.begin
  let h := s.clap.num
  .next (if s.twin.role = .principal && s.twin.handover && s.twin.handoverAt = h then
      let s := { s with twin := { s.twin with handover := false } }
      if low then
        let s := s.releaseTake.setRole .double
        let s := { s with twin := { s.twin with
          sense := true, step := .syncing, validTo := some (h - 1), okTick := some (h - 2), unjudgedRun := 0, gap := false } }
        let s := match s.links.convs.find? fun c => c.kind = 3 && c.initiator with
          | some c => s.closeConv c.id
          | none => s
        s.raise pgTwin 21
      else
        -- TAKE is high at 3 µs: it drives again
        let s := s.releaseTake
        (({ s with twin := { s.twin with drive := true, sense := true } } : State).raise pgTwin 22).drivePins
    else if s.proceeds then
      ((s.claimNow 3 (h - 1)).raise pgTwin 21).noteCut 0 h
    else s)

/-- One twin-table entry (R340). -/
def State.restoreOne (s : State) (i p : Nat) (d : Desc) : State :=
  if d.state = 0 || d.state = 5 then s
  else
    let own := s.desc i
    if !s.ctxOf p i || !(own.state = 0 || own.state = 5) then s.raise pgTwin 26
    else
      let faulted (s : State) : State := s.setDesc i fun _ => { d with state := 5, cause := 4, run := false, deadline := 0, parkFirst := 0, parkGran := 0 }
      let img := mget (fun _ => none) s.twin.images i
      -- the image's granules become the context's own
      let take (s : State) (t : TwinImage) : State :=
        let s := s.dropImage p i
        { s with stores := { s.stores with parkUse := mmod (fun _ => []) s.stores.parkUse p fun l => l ++ [(t.first, t.gran, i)] } }
      let ttl := leAt d.params 0x30 4
      if d.state = 1 then s.setDesc i fun _ => d
      else match img with
        | none => faulted s
        | some t =>
          match s.loadPark p ckptUnit (s.granPpa p t.first) 256 with
          | (.error _, s) => faulted s
          | (.ok b, s) =>
            let k := Desc.parse b
            let s := take s t
            if d.state = 4 && t.kind = 2 then
              s.setDesc i fun _ => { d with run := false, parkFirst := t.first, parkGran := t.gran }
            else
              s.setDesc i fun _ => { d with
                state := 4, cause := 0, run := false, pos := k.pos, lastToken := k.lastToken, hasLast := k.hasLast,
                gramState := k.gramState, step := k.step, gen := k.gen, parkFirst := t.first, parkGran := t.gran,
                deadline := if d.state = 4 then d.deadline else s.clap.sec + ttl }

def execContextRestore (s : State) : Out :=
  let s := s.begin
  .next (match s.twin.restoreAt with
    | none => s
    | some n =>
      if s.twin.role ≠ .principal || decide (s.clap.num < n) then s
      else
        let s := { s with twin := { s.twin with restoreAt := none } }
        s.twin.table.foldl (fun s (e : Nat × Option (Nat × Desc)) =>
          match e.2 with
          | some (p, d) => if (s.part p).bound then s.restoreOne e.1 p d else s
          | none => s) s)

/-- Slate F+2: the pins follow their queues again. -/
def execCutoverGapEnd (s : State) : Out :=
  let s := s.begin
  .next (if !s.twin.gap then s
    else match s.twin.gapF with
      | some f =>
        if s.clap.num < f + 2 then s
        else
          let at' := s.twin.gapS.getD 0
          let n := min (f + 2 - at') 15
          let s := s.wr pgTwin 0x80 (word (n + min (f - at') 255 * 256))
          (({ s with twin := { s.twin with gap := false } } : State).noteCut n at').drivePins
      -- R334: with no class A reel there is no tick F to wait for
      | none => if s.classALoaded then s else ({ s with twin := { s.twin with gap := false } } : State).drivePins)

def execCutoverSlow (s : State) : Out :=
  let s := s.begin
  .next (if s.twin.gap && !s.twin.slow && decide (8 < s.groupSize)
        && (match s.twin.gapS with | some at' => decide (at' + 16 ≤ s.clap.num) | none => false) then
      ({ s with twin := { s.twin with slow := true } } : State).raise pgTwin 23
    else s)

end Sys2Proof.Machine
end

