-- ==== Sys2Proof/Machine/Items.lean ====
section
/-! DEFINITION. Work items in the scoreboard: when one may run, when it starts, what its completion releases
(R36, R48, R50, R52, R297, R319, R323, R359, R368). -/
namespace Sys2Proof.Machine

/-! ### The call sheet (R35) -/

/-- Sections of an image: 0 call sheet, 1 cut list, 2 weights, 3 constants. -/
def secOff (im : Bytes) (k : Nat) : Nat := leAt im (0x40 + 16 * k) 8
def secLen (im : Bytes) (k : Nat) : Nat := leAt im (0x48 + 16 * k) 8

/-- Work items of an image. -/
def sheetCount (im : Bytes) : Nat := secLen im 0 / 32

structure SheetItem where
  idx : Nat
  unit : Nat
  op : Nat
  start : Nat
  cycles : Nat
  /-- Predecessors as stored, without the unused ones. -/
  preds : List Nat
  desc : Nat
  rsvd : Nat
  deriving DecidableEq, Repr

def sheetItem (im : Bytes) (k : Nat) : SheetItem :=
  let o := secOff im 0 + 32 * k
  { idx := k, unit := leAt im o 2, op := leAt im (o + 2) 2, start := leAt im (o + 4) 4, cycles := leAt im (o + 8) 4,
    preds := ((List.range 4).map fun j => leAt im (o + 12 + 2 * j) 2).filter fun q => !(q = 0xFFFF),
    desc := leAt im (o + 20) 8, rsvd := leAt im (o + 28) 4 }

def sheet (im : Bytes) : List SheetItem := (List.range (sheetCount im)).map (sheetItem im)

/-- The operation descriptor of an item. -/
def descBytes (im : Bytes) (o n : Nat) : Bytes := fitBytes n ((im.drop o).take n)

/-! ### Groups of items: one tick, one step, one request -/

/-- Do two items belong to one dispatch? -/
def Item.mate (a b : Item) : Bool :=
  a.p = b.p && a.cls = b.cls && a.handle = b.handle && a.tick = b.tick && a.ctx = b.ctx && a.step = b.step && a.slot = b.slot

def Item.open' (i : Item) : Bool := i.st = .waiting || i.st = .running || i.st = .halted

/-- Items of a class A tick. -/
def State.tickItems (s : State) (n : Nat) : List Item := s.sched.items.filter fun i => i.cls = 1 && i.tick = n
/-- Items of a context's step. -/
def State.ctxItems (s : State) (p c : Nat) : List Item := s.sched.items.filter fun i => i.cls = 2 && i.p = p && i.ctx = c
/-- Items of a BATCH_RUN. -/
def State.batchItems (s : State) (p slot : Nat) : List Item := s.sched.items.filter fun i => i.cls = 3 && i.p = p && i.slot = slot

/-! ### Splicer descriptors (R186, R187) -/

structure SplDesc where
  op : Nat
  trig : Nat
  trigHi : Nat
  srcBase : Nat
  dstBase : Nat
  baseHi : Nat
  len : Nat
  src : Nat
  dst : Nat
  next : Nat
  chainV : Nat
  rep : Nat
  offUs : Nat
  perUs : Nat
  deriving DecidableEq, Repr

def splDesc (b : Bytes) : SplDesc :=
  let t := leAt b 2 1
  let k := leAt b 3 1
  { op := leAt b 0 2, trig := t % 4, trigHi := t / 4, srcBase := k % 4, dstBase := k / 4 % 4, baseHi := k / 16, len := leAt b 4 4,
    src := leAt b 8 8, dst := leAt b 16 8, next := leAt b 24 2, chainV := leAt b 26 1, rep := leAt b 27 1,
    offUs := leAt b 28 2, perUs := leAt b 30 2 }

/-- Splicer items of an image. -/
def splItems (im : Bytes) : List SheetItem := (sheet im).filter fun e => decide (0x500 ≤ e.unit) && decide (e.unit ≤ 0x51F)

/-- First byte of the reel's Splicer table: the lowest descriptor that an item names. -/
def splBase (im : Bytes) : Nat := (splItems im).foldl (fun a e => if a = 0 then e.desc else min a e.desc) 0

def splIndex (im : Bytes) (desc : Nat) : Nat := (desc - splBase im) / 32

/-- Descriptor k of the reel's table. -/
def splAt (im : Bytes) (k : Nat) : SplDesc := splDesc (descBytes im (splBase im + 32 * k) 32)

/-- Indices of the list that starts at k; a list that does not end gives more than 2,048 entries. -/
def splList (im : Bytes) (k fuel : Nat) : List Nat :=
  match fuel with
  | 0 => []
  | fuel + 1 =>
    let n := (splAt im k).next
    if n = 0xFFFF then [k] else k :: splList im n fuel

/-- Entries of the reel's table. -/
def splEntries (im : Bytes) : Nat :=
  (splItems im).foldl (fun a e => max a (maxNat ((splList im (splIndex im e.desc) 2049).map (· + 1)))) 0

/-- The Splicer item of virtual channel v. -/
def splOfChan (im : Bytes) (v : Nat) : Option SheetItem := (splItems im).find? fun e => e.unit = 0x500 + v

/-- Firings that a dispatch calls for on a list: a CHAIN list fires as often as the list it follows. -/
def splFirings (im : Bytes) (k fuel : Nat) : Nat :=
  match fuel with
  | 0 => 0
  | fuel + 1 =>
    let d := splAt im k
    if d.trig = 1 then d.rep
    else if d.trig = 2 then
      match splOfChan im d.chainV with
      | some e => splFirings im (splIndex im e.desc) fuel
      | none => 0
    else 1

def State.splEntry (s : State) (k : Nat) : SplDesc := splDesc (mget (fun _ => []) s.splicer.store k)

/-! ### Arming a channel (R189, R190) -/

/-- Channel c takes an item: its list waits for its firings. -/
def State.armChan (s : State) (c : Nat) (i : Item) (r : Reel) : State :=
  let k := splIndex r.image i.desc
  let n := splFirings r.image k 33
  s.modChan c fun h => { h with
    st := 1, eligible := false, pendingFire := false, vch := i.unit - 0x500, reel := i.handle, part := i.p, item := i.id
    first := r.splFirst + k, desc := r.splFirst + k, done := 0, firesLeft := n, runsLeft := n }

/-- The channel of a Splicer item is its own already, or free for it. -/
def State.chanReady (s : State) (i : Item) : Bool :=
  let k := s.chan (i.page - 0x30)
  k.item = i.id || (k.st = 0 && k.item = 0)

/-- Is it a Splicer item? -/
def Item.spl (i : Item) : Bool := decide (0x500 ≤ i.unit) && decide (i.unit < 0x520)

/-- Channel c takes item i if it is free for it; a channel that is still running, or halted, keeps what it holds (R197). -/
def State.armItem (s : State) (i : Item) : State :=
  match s.findReel i.p i.handle with
  | none => s
  | some r =>
    let c := i.page - 0x30
    if i.spl && (s.chan c).st = 0 && (s.chan c).item = 0 then s.armChan c i r else s

/-- A class A Splicer item waits for the unit's earlier class A items, a channel that stays halted among them (R50, R193, R199). -/
def State.laneFree (s : State) (i : Item) : Bool :=
  !(i.spl && i.cls = 1) ||
  (!(s.sched.items.any fun j => j.spl && j.cls = 1 && j.id ≠ i.id && (j.st = .running || j.st = .halted))
    && !((List.range 32).any fun c => let k := s.chan c; k.classA && k.st = 3 && k.item ≠ i.id))

/-! ### Starting (R48, R50) -/

/-- Is the unit of a page free? -/
def State.unitFree (s : State) (pg : Nat) : Bool :=
  !(s.sched.items.any fun i => i.page = pg && (i.st = .running || (i.st = .halted)))

/-- Are the page's domain ready and its block enabled (R253, R368)? -/
def State.unitReady (s : State) (pg : Nat) : Bool := s.power.domainReady.testBit (pageDomain pg) && s.pageOn pg

/-- Length of the guard after a slate (R33). -/
def guardT : Nat := 5 * tUs

/-- A prime cell that the loaded class A reel holds runs class A work only (R23). -/
def State.cellOpen (s : State) (i : Item) : Bool :=
  i.cls = 1 || !(pageKind i.page = .prime && (match s.classA with | some r => r.cells.contains (i.page - 0x100) | none => false))

/-- No later step of a cancelled run, and no later item of a cancelled BATCH_RUN, starts (R155). -/
def State.notCancelled (s : State) (i : Item) : Bool :=
  i.cls ≠ 3 || !(s.sched.batches.any fun b => b.p = i.p && b.slot = i.slot && b.cancel.isSome)

/-- At most one ATTEND item of a context is in flight (R118). -/
def State.attendFree (s : State) (i : Item) : Bool :=
  !(i.cls = 2 && i.op = 0x30 && s.sched.items.any fun j => j.cls = 2 && j.p = i.p && j.ctx = i.ctx && j.op = 0x30 && j.st = .running)

/-- May the item run now?  No class A array work runs in the guard (R33). -/
def State.canRun (s : State) (i : Item) : Bool :=
  i.st = .waiting && i.preds.isEmpty && s.unitFree i.page && s.unitReady i.page && s.teleReady i && s.cellOpen i && s.notCancelled i
    && s.attendFree i && (!i.spl || s.chanReady i) && s.laneFree i && (i.cls ≠ 1 || (s.inputDone i.tick && (pageKind i.page ≠ .prime || decide (s.clap.last + guardT ≤ s.now))))

/-- Stream-buffer pages that a draw-cell item uses (BUF_USE). -/
def State.bufPages (s : State) (i : Item) : Nat :=
  match s.findReel i.p i.handle with
  | some r => let d := drawDesc (descBytes r.image i.desc 64); d.pages d.rows
  | none => 0

/-- A unit takes an item of partition p: another partition's residue is zero-filled first (R359). -/
def State.enterUnit (s : State) (i : Item) : State :=
  let pg := i.page
  let clean : Bool := match (s.unit pg).residue with | some q => decide (q ≠ i.p) | none => false
  let s := s.modUnit pg fun u => { u with
    can := if clean then [] else u.can, aux := if clean then [] else u.aux, ledgers := if clean then [] else u.ledgers
    storeKey := if clean then none else u.storeKey
    canPages := if pageKind pg = .draw then s.bufPages i else u.canPages
    residue := some i.p, busy := true, item := i.idx, holder := i.p, reel := i.handle }
  let owner := if pageKind pg = .prime || pageKind pg = .draw || pageKind pg = .focus then i.p else 0
  s.modHdr pg fun h => { h with owner := owner }

/-! ### Batches on draw cells (R114) -/

/-- Rows of an item: those of its chunk or step for class B, else the largest batch (R112, R115). -/
def State.itemRows (s : State) (i : Item) (most : Nat) : Nat :=
  if i.cls = 2 then
    match s.runOf i.p i.ctx with
    | some r => min 256 (r.rows.length - 256 * ((i.step + 2 ^ 44 - (s.desc i.ctx).step) % 2 ^ 44))
    | none => 0
  else most

/-- Is j the same decode item as i, of another context, and ready as well? -/
def State.ridesWith (s : State) (i j : Item) : Bool :=
  j.cls = 2 && j.p = i.p && j.handle = i.handle && j.idx = i.idx && j.page = i.page && j.ctx ≠ i.ctx && j.st = .waiting && j.preds.isEmpty
    && (match s.runOf j.p j.ctx with | some r => !r.prefill && r.cancel.isNone | none => false)

/-- Items whose rows join those of item i, while ROWS holds them. -/
def State.gather (s : State) (most used : Nat) (l : List Item) : List Nat :=
  match l with
  | [] => []
  | j :: r =>
    let n := used + s.itemRows j most
    if n ≤ most then j.id :: s.gather most n r else s.gather most used r

/-- A decode item batches the rows of several contexts. -/
def State.ridersOf (s : State) (i : Item) : List Nat :=
  match s.findReel i.p i.handle, s.runOf i.p i.ctx with
  | some r, some run =>
    if i.cls ≠ 2 || !(i.op = 0x20 || i.op = 0x21) || run.prefill then []
    else
      let d := drawDesc (descBytes r.image i.desc 64)
      s.gather d.rows (s.itemRows i d.rows) (s.sched.items.filter (s.ridesWith i))
  | _, _ => []

/-- The item runs. -/
def State.runItem (s : State) (i : Item) : State :=
  let riders := s.ridersOf i
  let s := riders.foldl (fun s id => s.modItem id fun j => { j with st := .running }) s
  let s := s.modItem i.id fun i => { i with st := .running, riders := riders }
  -- LOAD_SIG: domains that ran class B or class C work in the tick (R320)
  let s := if i.cls = 1 then s else s.modPower fun w => { w with loadSig := w.loadSig ||| 2 ^ pageDomain i.page }
  if 0x500 ≤ i.unit then (s.sched.items.filter fun j => i.mate j && (j.st = .waiting || j.st = .running)).foldl State.armItem s
  else if 0x400 ≤ i.unit then (s.startTele i).nextPicture else s.enterUnit i

/-- A class A item that waits past its START (R50). -/
def State.classALate (s : State) (i : Item) : State :=
  if i.cls ≠ 1 || i.late then s
  else ((s.modItem i.id fun i => { i with late := true }).count pgSched 0x58 1).raise pgSched 9

/-! ### Completion -/

/-- A class A tick of which every item has completed (R52, R319, R323). -/
def State.finishTick (s : State) (n : Nat) : State :=
  match s.tickRun n, s.classA with
  | some t, some r =>
    if t.complete || t.dead || (s.tickItems n).any (fun i => i.open') then s
    else
      let st := s.stateBytes r
      let s := s.modTick n fun t => let t := { t with complete := true, state := st }; { t with digest := t.sum }
      s.contSend n
  | _, _ => s

/-- Predecessors learn that an item has completed. -/
def State.releaseSuccs (s : State) (id : Nat) : State :=
  { s with sched := { s.sched with items := s.sched.items.map fun (i : Item) => { i with preds := i.preds.filter fun q => !(q = id) } } }

/-! ### Whose turn it is on a unit (R49) -/

/-- PART_WEIGHT of a partition; 0 takes no class B or C cycles. -/
def State.weightOf (s : State) (p : Nat) : Nat := field (s.rd pgSched (0x80 + 4 * p)) 0 8

/-- Items of a class that may run on a unit now, the oldest first. -/
def State.readyOn (s : State) (pg cls : Nat) : List Item :=
  s.sched.items.filter fun i => i.page = pg && i.cls = cls && s.canRun i && s.weightOf i.p ≠ 0

def State.deficitOf (s : State) (pg p : Nat) : Nat := mget (fun _ => 0) s.units.deficit (pg * 16 + p)

/-- Rounds of the deficit round-robin until the partition's credit covers the item.  A round adds PART_WEIGHT cycles, since the
spec names no quantum (DESIGN CHOICE, log entry 87). -/
def State.roundsFor (s : State) (i : Item) : Nat := ceilDiv (i.cycles - s.deficitOf i.page i.p) (max 1 (s.weightOf i.p))

/-- The first ready class B item of each partition, the partition after the one served last first. -/
def State.turnsOn (s : State) (pg : Nat) : List Item :=
  let l := s.readyOn pg 2
  ((List.range 16).map fun k => (mget (fun _ => 15) s.units.lastServed pg + 1 + k) % 16).filterMap fun p => l.find? fun i => i.p = p

/-- The class B item that the round-robin reaches first. -/
def State.pickB (s : State) (pg : Nat) : Option Item :=
  (s.turnsOn pg).foldl (fun (b : Option Item) i => match b with
    | some x => if s.roundsFor i < s.roundsFor x then some i else b
    | none => some i) none

def State.servedOn (s : State) (pg cls : Nat) : Nat := mget (fun _ => 0) (if cls = 2 then s.units.servedB else s.units.servedC) pg

/-- The class B or C item whose turn it is: class B first, but class C where the unit would else give it less than CLASS_C_MIN
percent of the cycles of this tick (R49; log entry 87). -/
def State.nextOn (s : State) (pg : Nat) : Option Item :=
  match s.pickB pg, (s.readyOn pg 3).head? with
  | some b, some c =>
    let cMin := field (s.rd pgSched 0x40) 8 7
    if 100 * s.servedOn pg 3 < cMin * (s.servedOn pg 2 + s.servedOn pg 3 + b.cycles) then some c else some b
  | some b, none => some b
  | none, c => c

/-- The round-robin moves on to the partition of item i. -/
def State.serveB (s : State) (i : Item) : State :=
  let k := s.roundsFor i
  let turns := s.turnsOn i.page
  let credit (p : Nat) : Nat :=
    if turns.any fun j => j.p = p then s.deficitOf i.page p + k * s.weightOf p - (if p = i.p then i.cycles else 0) else 0
  { s with units := { s.units with
      deficit := (List.range 16).foldl (fun m p => mset (fun _ => 0) m (i.page * 16 + p) (credit p)) s.units.deficit
      lastServed := mset (fun _ => 15) s.units.lastServed i.page i.p
      servedB := mmod (fun _ => 0) s.units.servedB i.page (· + i.cycles) } }

/-- A class B or C item takes its turn. -/
def State.takeTurn (s : State) (i : Item) : State :=
  let s := if i.cls = 2 then s.serveB i
    else { s with units := { s.units with servedC := mmod (fun _ => 0) s.units.servedC i.page (· + i.cycles) } }
  s.runItem i

/-- Class A items past their START run as soon as they can, and each unit takes the class B or C item whose turn it is
(R48–R50). -/
def State.startReady (s : State) : State :=
  let s := (s.sched.items.filter fun i => i.cls = 1 && i.late).foldl (fun s (x : Item) =>
    match s.item x.id with
    | some i => if s.canRun i then s.runItem i else s
    | none => s) s
  ((s.sched.items.filter fun i => i.cls ≠ 1 && i.st = .waiting).map fun i => i.page).eraseDups.foldl (fun s pg =>
    match s.nextOn pg with
    | some i => s.takeTurn i
    | none => s) s

/-- The PLACE record of partition 0's item under WHOLE residency (R401). -/
def State.placeRecord (s : State) (i : Item) : State :=
  if i.p ≠ 0 || pageKind i.page ≠ .prime || !s.wholeItem i.page then s
  else s.note { tick := s.clap.num, kind := 8, flags := b2n i.rehearsal, info := leBytes 2 i.unit ++ leBytes 2 (i.page - 0x100)
                  ++ leBytes 2 i.handle ++ leBytes 2 0 ++ leBytes 8 (s.unit i.page).mapCrc }

/-- The unit is free; pages that only the item used are in use no more. -/
def State.leaveUnit (s : State) (i : Item) : State :=
  let mine : Bool := pageKind i.page = .draw || (pageKind i.page = .prime && i.cls ≠ 1)
  s.modUnit i.page fun u => { u with
    busy := false, canPages := if mine then 0 else u.canPages, csPages := if mine then 0 else u.csPages }

/-- An item completes: its unit is free, its successors are released, and its tick or step may be done. -/
def State.completeItem (s : State) (i : Item) : State :=
  let s := s.placeRecord i
  let s := (s.modItem i.id fun i => { i with st := .done }).releaseSuccs i.id
  let s := if 0x400 ≤ i.unit then s
    else s.leaveUnit i
  let s := if i.cls = 1 then s.finishTick i.tick
    else if i.cls = 2 then
      if (s.ctxItems i.p i.ctx).any fun j => j.step = i.step && j.open' then s
      else s.modRun i.p i.ctx fun r => { r with doneSteps := r.doneSteps + 1 }
    else s
  s.startReady.gateNow

/-- Items that completed or were abandoned leave the scoreboard at the slate, with the bytes kept for them. -/
def State.retireItems (s : State) : State :=
  let gone := s.sched.items.filter fun i => i.st = .done && !(s.sched.items.any fun j => i.mate j && j.open')
  let isGone (id : Nat) : Bool := gone.any fun i => i.id = id
  let s := { s with
    sched := { s.sched with items := s.sched.items.filter fun i => !isGone i.id }
    units := { s.units with
      streams := s.units.streams.filter fun (e : Nat × Bytes) => !isGone (e.1 / 65536)
      streamPos := s.units.streamPos.filter fun (e : Nat × Nat) => !isGone (e.1 / 65536)
      mixes := s.units.mixes.filter fun (e : Nat × List (Nat × Bytes)) => !isGone e.1
      logits := s.units.logits.filter fun (e : Nat × List Bytes) => !isGone e.1 } }
  s.gateNow

/-! ### Abandoning (R393, R394, R199) -/

/-- Channels that an item holds end as an abort; a class B or C item's channels are free again. -/
def State.endItemChans (s : State) (i : Item) : State :=
  (List.range 32).foldl (fun s c => if (s.chan c).item = i.id && (s.chan c).st ≠ 0 then s.idleChan c else s) s

/-- The item leaves without completing. -/
def State.abandon (s : State) (i : Item) : State :=
  let s := (s.endItemChans i).endItemTele i
  let s := { s with sched := { s.sched with items := s.sched.items.filter fun j => !(j.id = i.id) } }
  if 0x400 ≤ i.unit then s
  else s.leaveUnit i

/-- A class A tick that can never complete: its items go, and a state break may begin. -/
def State.killTick (s : State) (n : Nat) : State :=
  let s := ((s.tickItems n).filter fun i => i.open').foldl State.abandon s
  let s := s.modTick n fun t => { t with dead := true }
  -- bytes that the tick left between cells go with it
  let s := if s.sched.items.any fun i => i.cls = 1 && i.open' then s
    else { s with units := { s.units with streams := s.units.streams.filter fun (e : Nat × Bytes) => decide (65536 ≤ e.1) } }
  match s.classA with
  | none => s
  | some r =>
    if (stateAreas r.image).isEmpty || s.sched.breakAt.isSome || !(s.twin.role = .principal || s.twin.role = .none) then s
    else
      let s := { s with sched := { s.sched with breakAt := some n } }
      (s.faultRec r.p 1 0x0106 0 r.handle 0xFFFF (leBytes 8 n) false).graveDiag .stateBreak

/-- ITEM_ABANDONED: at the first slate after a halt. -/
def State.abandonHalted (s : State) : State :=
  let h := s.sched.items.filter fun i => i.st = .halted
  h.foldl (fun s i =>
    if i.cls = 1 then (s.abandon i).killTick i.tick
    else if i.cls = 2 then
      let s := s.modRun i.p i.ctx fun r => { r with failed := true }
      ((s.ctxItems i.p i.ctx).filter fun j => j.open').foldl State.abandon s
    else
      let s := s.modBatch i.p i.slot fun b => { b with failed := true }
      ((s.batchItems i.p i.slot).filter fun j => j.open').foldl State.abandon s) s

/-! ### The row ITEM_START -/

/-- Instant of a class A item's START: its offset from the slate that dispatched it, and never inside the guard (R33, R48). -/
def State.startInst (s : State) (i : Item) : Nat :=
  if i.tick + 1 = s.clap.num then s.clap.last + max guardT (i.start * 15) else s.clap.last + guardT

/-- A class A item reaches its START, or a class B or C item its turn: it runs, or it waits. -/
def execItemStart (id : Nat) (s : State) : Out :=
  let s := s.begin
  .next (match s.item id with
    | none => s
    | some i =>
      if i.st ≠ .waiting then s
      else if i.cls = 1 then
        let s := s.at (s.startInst i)
        if s.canRun i then s.runItem i else s.classALate i
      else match s.nextOn i.page with
        | some j => if j.id = i.id then s.takeTurn i else s
        | none => s)

end Sys2Proof.Machine
end

