-- ==== Sys2Proof/Machine/Splicer.lean ====
section
/-! DEFINITION. The Splicer: descriptors, triggers, the running slot, copies, halts and commands (R186–R200). -/
namespace Sys2Proof.Machine

/-! ### The running slot (R191, R192) -/

/-- A firing that the channel cannot keep. -/
def State.trigLost (s : State) (c : Nat) : State :=
  let k := s.chan c
  let s := (s.countFor k.part pgSplicer 0x60 0x19C 1).raise (pgChan c) 10
  match s.item k.item with
  | some i => if i.st = .halted then s else s.haltItem i codeTrig
  | none => s

/-- Channel c fires. -/
def State.fireChan (s : State) (c : Nat) : State :=
  let k := s.chan c
  if k.eligible || k.st = 2 || k.st = 3 then
    if k.pendingFire then s.trigLost c else s.modChan c fun k => { k with pendingFire := true }
  else (s.modChan c fun k => { k with eligible := true, desc := k.first, done := 0 }).grantSlot

/-- A SLATE or TIMER trigger. -/
def execSplicerFiring (c : Fin 32) (s : State) : Out :=
  let s := s.begin
  let k := s.chan c.val
  -- a halted item's firings still fall due, and are lost or kept by R192
  let live : Bool := match s.item k.item with | some i => i.st = .running || i.st = .halted | none => false
  .next (if k.st = 0 || !live || k.firesLeft = 0 || (s.splEntry k.first).trig = 2 then s
    else (s.modChan c.val fun k => { k with firesLeft := k.firesLeft - 1 }).fireChan c.val)

/-! ### Halts (R197) -/

def splInfo (write narrow : Bool) (cause desc : Nat) : Word := word (b2n write + cause * 2 + b2n narrow * 16 + desc % 2048 * 32)

/-- The channel stops at an access and gives up the slot. -/
def State.haltChan (s : State) (c : Nat) (write narrow : Bool) (cause addr : Nat) (reh : Bool := false) : State :=
  let k := s.chan c
  let s := s.modChan c fun k => { k with st := 3 }
  let s := { s with splicer := { s.splicer with slot := if s.splicer.slot = some c then none else s.splicer.slot } }
  let info := splInfo write narrow cause k.desc
  let s := if cause = 5 then s.parityFault (pgChan c) 9 addr info reh else s.fault (pgChan c) 8 addr info reh
  let s := s.raiseWith pgSplicer 8 reh false
  let s := match s.item k.item with
    | some i =>
      let s := s.itemRecord i (if cause = 5 then codeParity else codeBus) i.faultData reh
      if reh then s.markRehearsal i else s
    | none => s
  s.grantSlot

def splCause : SplicerFault → Nat
  | .refused => 1 | .addrErr => 2 | .rmwParity => 3 | .linkDown => 4 | .parity => 5

def errCause : StoreErr → Nat
  | .refused _ => 1 | .addrErr _ => 2 | .rmw _ => 3 | .linkDown _ => 4 | .parity _ => 5

def execSplicerChannelHalt (c : Fin 32) (k : SplicerFault) (write narrow : Bool) (addr : Nat) (s : State) : Out :=
  let s := s.begin
  .next (if s.splicer.slot = some c.val && (s.chan c.val).st = 2 then
      (s.realFault (pgChan c.val)).haltChan c.val write narrow (splCause k) (addr / 64 * 64)
    else s)

/-! ### Copies (R194, R195) -/

/-- Does a byte of [a, a + n) fail in granule g? -/
def failsIn (bad g a n : Nat) : Bool :=
  (List.range 64).any fun k => bad.testBit k && decide (a ≤ g * 64 + k) && decide (g * 64 + k < a + n)

/-- Read the source granules of a piece that are not in the funnel yet; the failing granule and cause otherwise. -/
def State.readSrc (s : State) (q : Requester) (lo hi a n g cnt : Nat) : Option (Nat × Nat) × State :=
  match cnt with
  | 0 => (none, s)
  | cnt + 1 =>
    if g < lo || hi < g then s.readSrc q lo hi a n (g + 1) cnt
    else
      let bad := s.badMainAt g
      -- an injection inverts byte 0; only bytes of the source range are checked
      onErr (s.readGran q g)
        (fun e s =>
          if e.isParity then
            if failsIn (if bad = 0 then 1 else bad) g a n then (some (g, 5), s) else s.readSrc q lo hi a n (g + 1) cnt
          else (some (g, errCause e), s))
        fun s => s.readSrc q lo hi a n (g + 1) cnt

/-- How a copy ends. -/
inductive CopyEnd where
  | done
  | halted (write narrow : Bool) (cause pa : Nat) (reh : Bool)
  deriving DecidableEq, Repr

/-- Copy from byte `o` of [src, src + len) to dst, granule by granule; `got` is the next source granule not read. -/
def State.copyLoop (s : State) (q : Requester) (c src dst len o got fuel : Nat) : CopyEnd × State :=
  match fuel with
  | 0 => (.done, s)
  | fuel + 1 =>
    if len ≤ o then (.done, s)
    else onErr (s.takeInject (pgChan c))
      (fun i s => (.halted false false 1 ((src + o) / 64 * 64) true, s.injectOutcome i.entry i.kind 1))
      fun s =>
        let n := min (64 - (dst + o) % 64) (len - o)
        let g0 := (src + o) / 64
        let g1 := (src + o + n - 1) / 64
        let stale := (List.range (g1 - g0 + 1)).any fun k =>
          decide (g0 + k < got) && failsIn (s.badMainAt (g0 + k)) (g0 + k) (src + o) n
        if stale then (.halted false false 5 (g0 * 64) false, s)
        else onErr (s.readSrc q got g1 (src + o) n g0 (g1 - g0 + 1))
          (fun g s => (.halted false false g.2 (g.1 * 64) false, s))
          fun s =>
            let narrow := decide (n < 64)
            onErr (s.writeGran q (dst + o) (s.rawMain (src + o) n))
              (fun e s => (.halted true narrow (errCause e) ((dst + o) / 64 * 64) false, s))
              fun s =>
              let s := if narrow then s.countFor q.p pgSplicer 0x58 0x198 1 else s
              let s := s.modChan c fun k => { k with done := o + n }
              s.copyLoop q c src dst len (o + n) (g1 + 1) fuel

/-- Base of a descriptor's range, in partition space (R186). -/
def State.splOrigin (s : State) (i : Item) (base : Nat) : Nat :=
  let req : Option Req := if i.cls = 2 then (s.runOf i.p i.ctx).map fun r => r.req
    else (s.sched.batches.find? fun b => b.p = i.p && b.slot = i.slot).map fun b => b.req
  match base, req with
  | 1, some r => r.addr0
  | 2, some r => r.addr1
  | _, _ => 0

/-- Run the list from the current descriptor; true when it has ended. -/
def State.runList (s : State) (c : Nat) (i : Item) (fuel : Nat) : Bool × State :=
  match fuel with
  | 0 => (true, s)
  | fuel + 1 =>
    let k := s.chan c
    let d := s.splEntry k.desc
    let q : Requester := { p := i.p, unit := 0x500 + c, clsA := decide (i.cls = 1) }
    let b := s.msBase i.p
    let src := b + s.splOrigin i d.srcBase + d.src
    let dst := b + s.splOrigin i d.dstBase + d.dst
    match s.copyLoop q c src dst d.len k.done ((src + k.done) / 64) (d.len / 64 + 2) with
    | (.halted w n cause pa reh, s) => (false, s.haltChan c w n cause (pa - b) reh)
    | (.done, s) =>
      let units := d.len / 64
      let s := if i.cls = 1 then s.countFor i.p pgSplicer 0x50 0x190 units else s.countFor i.p pgSplicer 0x54 0x194 units
      -- the wait for the slot has no figure in the spec: a free number of FABRIC cycles
      let s := if i.cls = 1 && i.p = 0 then ({ s with fresh := s.fresh + 1 } : State).countMax pgSplicer 0x5C (Config.freeNat s.fresh % 65536) else s
      if d.next = 0xFFFF then (true, s)
      else
        let base := match s.findReel i.p i.handle with | some r => r.splFirst | none => 0
        (s.modChan c fun k => { k with desc := base + d.next, done := 0 }).runList c i fuel

/-- Channels of the same dispatch that follow virtual channel v. -/
def State.chainAfter (s : State) (i : Item) (v : Nat) : List Nat :=
  (List.range 32).filter fun c =>
    let k := s.chan c
    decide (0 < k.firesLeft) && k.st ≠ 0 &&
    (match s.item k.item with
     | some j => i.mate j && (s.splEntry k.first).trig = 2 && (s.splEntry k.first).chainV = v
     | none => false)

/-- A channel's list has ended. -/
def State.listEnded (s : State) (c : Nat) (i : Item) : State :=
  let k := s.chan c
  let s := s.countFor k.part (pgChan c) 0x50 0x1A0 1
  let s := { s with splicer := { s.splicer with slot := none } }
  let last := decide (k.runsLeft ≤ 1)
  let s := s.modChan c fun k => { k with
    st := if last then 0 else 1, runsLeft := k.runsLeft - 1, eligible := k.pendingFire && !last, pendingFire := false,
    item := if last then 0 else k.item, desc := k.first, done := 0 }
  let s := (s.chainAfter i k.vch).foldl (fun s c => (s.modChan c fun k => { k with firesLeft := k.firesLeft - 1 }).fireChan c) s
  (if last then s.completeItem i else s).grantSlot

def execSplicerListDone (c : Fin 32) (s : State) : Out :=
  let s := s.begin
  let k := s.chan c.val
  .next (if s.splicer.slot ≠ some c.val || k.st ≠ 2 then s
    else match s.item k.item with
      | none => (s.idleChan c.val).grantSlot
      | some i =>
        match s.runList c.val i 2049 with
        | (false, s) => s
        | (true, s) => s.listEnded c.val i)

/-! ### RESUME and ABORT (R198, R199) -/

/-- End a channel's list and fail its item. -/
def State.abortChan (s : State) (c : Nat) : State :=
  let k := s.chan c
  let s := s.idleChan c
  State.grantSlot (match s.item k.item with
    | some i => if i.st = ItemSt.halted then s else s.stopItem i 0
    | none => s)

def State.chCmd (s : State) (c : Nat) (v : Word) : State :=
  if (s.chan c).st ≠ 3 then s
  else if bit v 0 then s.abortChan c
  else if bit v 1 then (s.modChan c fun k => { k with st := 1, eligible := true }).grantSlot
  else s

def execChCmdResume (c : Fin 32) (s : State) : Out := .next (s.begin.gated (pgChan c.val) 0x40 2 fun s w => s.chCmd c.val w)
def execChCmdAbort (c : Fin 32) (s : State) : Out := .next (s.begin.gated (pgChan c.val) 0x40 1 fun s w => s.chCmd c.val w)

end Sys2Proof.Machine
end

