-- ==== Sys2Proof/Machine/Image.lean ====
section
/-! DEFINITION. Operation descriptors and cut-list records of a reel image, and what an item takes from its streams
(R83–R88, R91, R101, R106, R124, R136, R433). -/
namespace Sys2Proof.Machine

/-! ### Descriptors (R84) and cut-list records (R83) -/

structure PrimeDesc where
  op : Nat
  fmtIn : Nat
  fmtW : Nat
  out : Nat
  rnd : Nat
  sat : Bool
  inW : Nat
  inRows : Nat
  cIn : Nat
  cOut : Nat
  kh : Nat
  kw : Nat
  sy : Nat
  sx : Nat
  dy : Nat
  dx : Nat
  padT : Nat
  padB : Nat
  padL : Nat
  padR : Nat
  groups : Nat
  ksplit : Nat
  flags : Nat
  padVal : Nat
  act : Nat
  tileTab : Nat
  weightCan : Nat
  biasCan : Nat
  tilePix : Nat
  tileCh : Nat
  inPort : Nat
  outPort : Nat
  haloCan : Nat
  inCan : Nat
  outCan : Nat
  deriving DecidableEq, Repr

def primeDesc (b : Bytes) : PrimeDesc :=
  { op := leAt b 0 2, fmtIn := leAt b 2 1 % 16, fmtW := leAt b 2 1 / 16, out := leAt b 3 1 % 16, rnd := leAt b 3 1 / 16 % 8,
    sat := (leAt b 3 1).testBit 7, inW := leAt b 4 2, inRows := leAt b 6 2, cIn := leAt b 8 2, cOut := leAt b 10 2,
    kh := leAt b 12 1, kw := leAt b 13 1, sy := leAt b 14 1 % 16 + 1, sx := leAt b 14 1 / 16 + 1, dy := leAt b 15 1 % 16 + 1,
    dx := leAt b 15 1 / 16 + 1, padT := leAt b 16 1, padB := leAt b 17 1, padL := leAt b 18 1, padR := leAt b 19 1,
    groups := leAt b 20 2, ksplit := leAt b 22 1, flags := leAt b 23 1, padVal := leAt b 24 2, act := leAt b 26 1,
    tileTab := leAt b 28 4, weightCan := leAt b 32 4, biasCan := leAt b 36 4, tilePix := leAt b 40 2, tileCh := leAt b 42 2,
    inPort := leAt b 44 1, outPort := leAt b 45 1, haloCan := leAt b 46 4, inCan := leAt b 50 4, outCan := leAt b 54 4 }

def opConv : Nat := 1
def opMatmul : Nat := 2
def opPoolMax : Nat := 3
def opPoolAvg : Nat := 4
def opEmit : Nat := 5

def PrimeDesc.bias (d : PrimeDesc) : Bool := d.flags.testBit 0
def PrimeDesc.residual (d : PrimeDesc) : Bool := d.flags.testBit 1 && (d.op = opConv || d.op = opMatmul)
def PrimeDesc.countPad (d : PrimeDesc) : Bool := d.flags.testBit 2
def PrimeDesc.halo (d : PrimeDesc) : Bool := d.flags.testBit 3 && !(d.op = opEmit)
def PrimeDesc.cg (d : PrimeDesc) : Nat := d.cIn / max 1 d.groups
def PrimeDesc.cog (d : PrimeDesc) : Nat := d.cOut / max 1 d.groups

def PrimeDesc.k (d : PrimeDesc) : Nat := d.kh * d.kw * d.cg
def PrimeDesc.kPad (d : PrimeDesc) : Nat := padK d.k d.fmtIn d.fmtW
/-- Contact-sheet row pitch. -/
def PrimeDesc.pitch (d : PrimeDesc) : Nat := roundUp (ceilDiv (d.kPad * fmtBits d.fmtIn) 8) 16

/-- Output width, and height without HALO (R87). -/
def PrimeDesc.outW (d : PrimeDesc) : Int := ((d.inW + d.padL + d.padR : Nat) - ((d.kw - 1) * d.dx + 1 : Nat) : Int) / (d.sx : Int) + 1
def PrimeDesc.outH (d : PrimeDesc) : Int := ((d.inRows + d.padT + d.padB : Nat) - ((d.kh - 1) * d.dy + 1 : Nat) : Int) / (d.sy : Int) + 1

structure CutRec where
  vcell : Nat
  residency : Nat
  canPages : Nat
  csPages : Nat
  weightSrc : Nat
  weightLen : Nat
  weightCan : Nat
  in0 : Nat
  in1 : Nat
  out0 : Nat
  out1 : Nat
  outFlags : Nat
  outBytes0 : Nat
  outBytes1 : Nat
  mem0 : Nat
  mem1 : Nat
  deriving DecidableEq, Repr

def cutRec (im : Bytes) (v : Nat) : CutRec :=
  let o := secOff im 1 + 64 * v
  { vcell := leAt im o 2, residency := leAt im (o + 2) 1, canPages := leAt im (o + 4) 2, csPages := leAt im (o + 6) 2,
    weightSrc := leAt im (o + 8) 8, weightLen := leAt im (o + 16) 4, weightCan := leAt im (o + 20) 4, in0 := leAt im (o + 24) 2,
    in1 := leAt im (o + 26) 2, out0 := leAt im (o + 28) 2, out1 := leAt im (o + 30) 2, outFlags := leAt im (o + 32) 1,
    outBytes0 := leAt im (o + 36) 4, outBytes1 := leAt im (o + 40) 4, mem0 := leAt im (o + 44) 8, mem1 := leAt im (o + 52) 8 }

def CutRec.src (c : CutRec) (k : Nat) : Nat := if k = 0 then c.in0 else c.in1
def CutRec.dst (c : CutRec) (k : Nat) : Nat := if k = 0 then c.out0 else c.out1
def CutRec.mem (c : CutRec) (k : Nat) : Nat := if k = 0 then c.mem0 else c.mem1
def CutRec.packed (c : CutRec) (k : Nat) : Bool := c.outFlags.testBit k

/-- Output rows of a tick or item by which the tile table counts: with HALO, those after the first tick (R85, R88). -/
def PrimeDesc.tableRows (d : PrimeDesc) : Nat := if d.halo then d.inRows / max 1 d.sy else d.outH.toNat

/-- Blocks of a CONV or MATMUL times their cycles (R91). -/
def PrimeDesc.arrayCycles (d : PrimeDesc) (pixels : Nat) : Nat :=
  ceilDiv pixels 32 * ceilDiv d.cog 32 * d.groups * max (d.kPad / kcOf d.fmtIn d.fmtW) 32

/-- Bytes of the residual of so many output rows, read in the output format (R90). -/
def residualBytes (d : PrimeDesc) (rows : Nat) : Nat := streamLen d.out d.outW.toNat d.cOut rows

/-- Inbound port whose main-store stream brings a class B or C cell's weights: base 1, the reel image (R112, R433). -/
def weightPort (c : CutRec) : Option Nat :=
  (List.range 2).find? fun k => c.src k = 0x600 && c.mem k / 2 ^ 62 = 1

/-- Does an EMIT read the stream that leaves cell v by port k?  Its head map arrives in the can map layout (R431). -/
def emitFed (im : Bytes) (v k : Nat) : Bool :=
  let dst := (cutRec im v).dst k
  decide (dst < 0xE0) && (sheet im).any fun e => e.unit = dst && e.op = opEmit
    && (cutRec im dst).src (primeDesc (descBytes im e.desc 64)).inPort = v

/-! ### Tile tables (R85) -/

structure TileEntry where
  anchor : Int
  shift : Nat
  mult : Nat
  zp : Int
  deriving DecidableEq, Repr

def tileEntry (im : Bytes) (tab k : Nat) : TileEntry :=
  let o := tab + 16 * k
  { anchor := sext 12 (leAt im o 2), shift := leAt im (o + 2) 1, mult := leAt im (o + 4) 4, zp := sext 32 (leAt im (o + 8) 4) }

/-! ### FRAME (R101, R106) -/

structure FrameDesc where
  centre : Bool
  agnostic : Bool
  clip : Bool
  scoreMin : Nat
  iouThr : Nat
  vx : Nat
  vy : Nat
  vw : Nat
  vh : Nat
  clampWh : Nat
  stride : Nat
  imgW : Nat
  imgH : Nat
  preTopk : Nat
  maxDet : Nat
  anchorTab : Nat
  originTab : Nat
  outArea : Nat
  deriving DecidableEq, Repr

def opFrame : Nat := 0x10

def frameDesc (b : Bytes) : FrameDesc :=
  let m := leAt b 2 1
  { centre := m.testBit 0, agnostic := m.testBit 1, clip := m.testBit 2, scoreMin := leAt b 4 4, iouThr := leAt b 8 4,
    vx := leAt b 0x0C 4, vy := leAt b 0x10 4, vw := leAt b 0x14 4, vh := leAt b 0x18 4, clampWh := leAt b 0x1C 4,
    stride := leAt b 0x20 4, imgW := leAt b 0x24 4, imgH := leAt b 0x28 4, preTopk := leAt b 0x2C 4, maxDet := leAt b 0x30 2,
    anchorTab := leAt b 0x34 4, originTab := leAt b 0x38 4, outArea := leAt b 0x3C 4 }

/-- ceil(log2 n), 0 below 2. -/
def lg2 (n : Nat) : Nat := if n < 2 then 0 else Nat.log2 (n - 1) + 1

/-- FABRIC cycles of n candidates. -/
def frameFabric (n preTopk maxDet : Nat) : Nat := n + ceilDiv (n * lg2 n) 16 + min n preTopk * ceilDiv maxDet 256

/-! ### ATTEND (R124) -/

structure AttendDesc where
  two : Bool
  fold : Bool
  mask : Nat
  w : Nat
  heads : Nat
  rank : Nat
  dpos : Nat
  ufmt : Nat
  dh : Nat
  dv : Nat
  layer : Nat
  group : Nat
  out : Nat
  rnd : Nat
  sat : Bool
  window : Nat
  aE : Int
  aS : Int
  aV : Int
  aU : Int
  zMult : Nat
  zShift : Nat
  eShift : Nat
  eMult : Nat
  uk : Nat
  uv : Nat
  deriving DecidableEq, Repr

def attendDesc (b : Bytes) : AttendDesc :=
  let m := leAt b 2 1
  { two := m.testBit 0, fold := m.testBit 1, mask := m / 4 % 4, w := leAt b 3 1 % 16, heads := leAt b 4 1, rank := leAt b 6 2,
    dpos := leAt b 8 1, ufmt := leAt b 9 1 % 16, dh := leAt b 0x0A 2, dv := leAt b 0x0C 2, layer := leAt b 0x0E 2,
    group := leAt b 0x10 2, out := leAt b 0x12 1 % 16, rnd := leAt b 0x12 1 / 16 % 8, sat := (leAt b 0x12 1).testBit 7,
    window := leAt b 0x14 4, aE := sext 12 (leAt b 0x18 2), aS := sext 12 (leAt b 0x1A 2), aV := sext 12 (leAt b 0x1C 2),
    aU := sext 12 (leAt b 0x1E 2), zMult := leAt b 0x20 4, zShift := leAt b 0x24 1, eShift := leAt b 0x25 1, eMult := leAt b 0x28 4,
    uk := leAt b 0x2C 4, uv := leAt b 0x30 4 }

def AttendDesc.wOut (d : AttendDesc) : Nat := if d.fold then d.rank else d.dv

/-- Bytes of an up-projection of n rows of RANK elements; MX scale bytes follow the elements, row by row. -/
def upBytes (d : AttendDesc) (n : Nat) : Nat :=
  ceilDiv (n * d.rank * fmtBits d.ufmt) 8 + (if isMx d.ufmt then n * (d.rank / 32) else 0)

/-! ### MIX (R136) -/

structure MixDesc where
  op : Nat
  out : Nat
  rnd : Nat
  sat : Bool
  tiles : Nat
  contrib : Nat
  tileTab : Nat
  tileLen : Nat
  dest : Nat
  deriving DecidableEq, Repr

/-- Bytes of one tile of a contribution: ledger records, or for MIX_GATHER closed values (R136). -/
def MixDesc.tileBytes (d : MixDesc) : Nat := if d.op = 0x41 then streamLen d.out 1 d.tileLen 1 else d.tileLen * 24

def opMixSum : Nat := 0x40
def opMixGather : Nat := 0x41
def isMixOp (op : Nat) : Bool := op = opMixSum || op = opMixGather

def mixDesc (b : Bytes) : MixDesc :=
  { op := leAt b 0 2, out := leAt b 2 1 % 16, rnd := leAt b 2 1 / 16 % 8, sat := (leAt b 2 1).testBit 7, tiles := leAt b 4 4,
    contrib := leAt b 8 8, tileTab := leAt b 0x10 4, tileLen := leAt b 0x14 2, dest := leAt b 0x16 2 }

/-! ### Bytes on streams (R83, R433) -/

/-- Inbound port that carries an operation's residual (R84). -/
def PrimeDesc.resPort (d : PrimeDesc) : Nat := if d.inPort = 2 then 0 else 1 - d.inPort

def SheetItem.prime (e : SheetItem) (im : Bytes) : PrimeDesc := primeDesc (descBytes im e.desc 64)
def SheetItem.isCell (e : SheetItem) : Bool := decide (e.unit < 0xE0)

/-- Raw bytes that a prime cell's item takes from inbound port k in one tick or item. -/
def takeBytes (im : Bytes) (e : SheetItem) (k : Nat) : Nat :=
  if isMixOp e.op then
    let m := mixDesc (descBytes im e.desc 64)
    if k = 0 then m.tiles * m.tileBytes else 0
  else
    let d := e.prime im
    (if d.inPort = k then
        (if d.op = opEmit then d.inRows * rowBytes 0xC d.inW d.cIn else streamLen d.fmtIn d.inW d.cIn d.inRows) else 0)
    + (if d.residual && d.resPort = k then residualBytes d d.tableRows else 0)

def vcells (im : Bytes) : Nat := leAt im 0x0E 2
def itemsOfCell (im : Bytes) (v : Nat) : List SheetItem := (sheet im).filter fun e => e.unit = v
def CutRec.outBytes (c : CutRec) (k : Nat) : Nat := if k = 0 then c.outBytes0 else c.outBytes1

/-- A main-store stream: base, offset, and its bytes. -/
structure MemStream where
  base : Nat
  off : Nat
  len : Nat
  out : Bool
  deriving DecidableEq, Repr

/-- Main-store streams of cell v's port k: outbound, and inbound the bytes that the items of one dispatch take, or the
weights of a class B or C cell. -/
def portStreams (im : Bytes) (cls v k : Nat) : List MemStream :=
  let c := cutRec im v
  let b := c.mem k / 2 ^ 62
  let o := c.mem k % 2 ^ 62
  let ins := (itemsOfCell im v).map fun e => takeBytes im e k
  (if c.dst k = 0x600 then [{ base := b, off := o, len := c.outBytes k, out := true }] else [])
  ++ (if c.src k ≠ 0x600 then []
      else if cls ≠ 1 && weightPort c = some k then [{ base := b, off := o, len := c.weightLen, out := false }]
      else [{ base := b, off := o, len := sumNat ins, out := false }])

def memStreams (im : Bytes) (cls : Nat) : List MemStream :=
  (List.range (vcells im)).flatMap fun v => (List.range 2).flatMap fun k => portStreams im cls v k

/-- Descriptors of a Splicer item's list. -/
def splOf (im : Bytes) (e : SheetItem) : List SplDesc := (splList im (splIndex im e.desc) 2049).map (splAt im)

/-! ### Areas of the dispatching request (R105, R188, R433) -/

/-- Does every stream, copy and detection of a class B or C reel stay inside its request's areas? -/
def areasHold (im : Bytes) (cls len0 len1 : Nat) : Bool :=
  let inArea (b o n : Nat) : Bool := if b = 1 then decide (o + n ≤ len0) else if b = 2 then decide (o + n ≤ len1) else true
  (memStreams im cls).all (fun m => inArea (m.base - 1) m.off m.len || decide (m.base < 2))
  && (splItems im).all (fun e => (splOf im e).all fun d => inArea d.srcBase d.src d.len && inArea d.dstBase d.dst d.len)
  && (sheet im).all fun e => e.op ≠ opFrame ||
      (let f := frameDesc (descBytes im e.desc 64); decide (f.outArea + 32 * f.maxDet ≤ len1))

/-- Does a descriptor with a request's base copy between ranges that overlap? -/
def copiesMeet (im : Bytes) (addr0 addr1 : Nat) : Bool :=
  let origin (b : Nat) : Nat := if b = 1 then addr0 else if b = 2 then addr1 else 0
  (splItems im).any fun e => (splOf im e).any fun d =>
    (d.srcBase ≠ 0 || d.dstBase ≠ 0) && rangesMeet (origin d.srcBase + d.src) d.len (origin d.dstBase + d.dst) d.len

end Sys2Proof.Machine
end

