-- ==== Sys2Proof/Machine/Video.lean ====
section
/-! DEFINITION. Telecine's pictures: the samples that it codes, its fixed algorithm, the statistics, and what its decoder reads of a
stream (R202, R207, R208, R212, R217–R219).  ITU-T H.265, which R202 names, gives the parameter sets and the interpolation. -/
namespace Sys2Proof.Machine

/-! ### Units and levels (R202, R204) -/

def isTeleUnit (u : Nat) : Bool := between 0x400 u 0x43F

/-- Largest luma picture of a general_level_idc of ITU-T H.265; none for a number that is no level. -/
def levelPx (l : Nat) : Option Nat :=
  match l with
  | 30 => some 36864 | 60 => some 122880 | 63 => some 245760 | 90 => some 552960 | 93 => some 983040
  | 120 | 123 => some 2228224 | 150 | 153 | 156 => some 8912896 | 180 | 183 | 186 => some 35651584
  | _ => none

def levelOk (d : TeleDesc) : Bool :=
  d.level = 0 ||
  (match levelPx d.level with
   | some n => decide (d.px ≤ n) && decide (d.wc * d.wc ≤ 8 * n) && decide (d.hc * d.hc ≤ 8 * n)
   | none => false)

/-! ### The samples of a tile picture (R207, R208) -/

/-- Columns of the source that tile `t` reads. -/
def TeleDesc.cols (d : TeleDesc) (t : Nat) : Nat :=
  let x0 := min (t * d.tw) (d.w - 1)
  max (x0 + 1) (min (t * d.tw + d.wc) d.w) - x0

/-- Sample k of a row; Main 10 ignores bits [15:10]. -/
def TeleDesc.sample (d : TeleDesc) (b : Bytes) (k : Nat) : Nat :=
  leAt b (k * d.s) d.s % (if d.s = 2 then 1024 else 256)

/-- Luma sample (x, y) of a tile picture whose source rows are `src`: the last column and row repeat. -/
def TeleDesc.luma (d : TeleDesc) (t : Nat) (src : Bytes) (x y : Nat) : Nat :=
  let n := d.cols t
  d.sample src (min y (d.h - 1) * n + min x (n - 1))

/-- Chroma sample `c` (0 Cb, 1 Cr) at (x, y) of the half-size planes; a MONO input has mid-level chroma. -/
def TeleDesc.chroma (d : TeleDesc) (t : Nat) (src : Bytes) (x y c : Nat) : Nat :=
  if d.mono then (if d.s = 2 then 512 else 128)
  else
    let n := d.cols t
    let m := roundUp n 2
    d.sample src (d.h * n + min y (d.h / 2 - 1) * m + min x (m / 2 - 1) * 2 + c)

/-- The picture that the engine codes: Wc × Hc luma samples, then the interleaved chroma. -/
def TeleDesc.coded (d : TeleDesc) (t : Nat) (src : Bytes) : Bytes :=
  ((List.range d.hc).flatMap fun y => (List.range d.wc).flatMap fun x => leBytes d.s (d.luma t src x y))
  ++ (List.range (d.hc / 2)).flatMap fun y => (List.range (d.wc / 2)).flatMap fun x =>
      leBytes d.s (d.chroma t src x y 0) ++ leBytes d.s (d.chroma t src x y 1)

/-! ### The fixed algorithm (R212) -/

/-- Everything that the bits, the reconstruction and the statistics of a picture depend on: the descriptor, the source samples, the
picture number, the reference frames and the rate-control state. -/
def encKey (t : TeleCtx) (src refs : Bytes) : Bytes :=
  t.desc ++ leBytes 1 t.tile ++ t.d.coded t.tile src ++ leBytes 4 t.pic ++ leBytes 1 t.picQp ++ leBytes 1 (b2n t.idr) ++ leBytes 1 (b2n t.forceIdr)
  ++ leBytes 1 t.sinceIdr ++ refs

/-- `n` bytes of a NAL unit behind its start code; `ty` is its type, and its layer and temporal ID are 0 and 1. -/
def nalUnit (ty : Nat) (body : Bytes) : Bytes := [0, 0, 0, 1] ++ leBytes 1 (ty * 2) ++ [1] ++ body

/-- Bytes of part `part` of a picture's stream that the fixed algorithm makes, which the spec does not give. -/
def algoBytes (key : Bytes) (part n : Nat) : Bytes := (List.range n).map (Config.encByte key part)

/-- Bits of a payload, first bit first. -/
def bitsOf (b : Bytes) : List Bool := b.flatMap fun x => (List.range 8).map fun k => x.toNat.testBit (7 - k)

/-- ue(v) and u(n), written. -/
def ueBits (v : Nat) : List Bool :=
  let n := Nat.log2 (v + 1)
  List.replicate n false ++ (List.range (n + 1)).map fun k => (v + 1).testBit (n - k)
def uBits (n v : Nat) : List Bool := (List.range n).map fun k => v.testBit (n - 1 - k)

/-- Bits as bytes, the last one filled with zeros. -/
def packBits (l : List Bool) : Bytes :=
  (List.range (ceilDiv l.length 8)).map fun k =>
    BitVec.ofNat 8 ((List.range 8).foldl (fun a j => 2 * a + b2n (l.getD (8 * k + j) false)) 0)

/-- Emulation prevention: a 3 goes before a byte of at most 3 that follows two zeros. -/
def guardBytes (b : Bytes) : Bytes :=
  (b.foldl (fun (x : Nat × Bytes) c =>
    if 2 ≤ x.1 ∧ c.toNat ≤ 3 then (if c = 0 then 1 else 0, x.2 ++ [3, c]) else (if c = 0 then x.1 + 1 else 0, x.2 ++ [c])) (0, [])).2

/-- general_level_idc: the descriptor's, or the lowest level whose picture-size limit admits the coded size (R202). -/
def TeleDesc.levelIdc (d : TeleDesc) : Nat :=
  if d.level ≠ 0 then d.level
  else ([30, 60, 63, 90, 93, 120, 150, 180].find? fun l => levelOk { d with level := l }).getD 180

/-- The SPS: Main or Main 10, Main tier, the level, 4:2:0, the coded size, the conformance window that crops the padding and the bit
depth (R202, R207); what follows is the fixed algorithm's. -/
def spsBody (t : TeleCtx) (key : Bytes) : Bytes :=
  let d := t.d
  let cropW := (d.wc - d.cols t.tile) / 2
  let cropH := (d.hc - d.h) / 2
  let p := if d.s = 2 then 2 else 1
  let head := uBits 8 1 ++ uBits 8 p ++ uBits 32 (if p = 1 then 3 * 2 ^ 29 else 2 ^ 29)
    ++ uBits 48 (leNat (algoBytes key 0 6)) ++ uBits 8 d.levelIdc
    ++ ueBits 0 ++ ueBits 1 ++ ueBits d.wc ++ ueBits d.hc
    ++ (if cropW = 0 ∧ cropH = 0 then [false] else [true] ++ ueBits 0 ++ ueBits cropW ++ ueBits 0 ++ ueBits cropH)
    ++ ueBits (if p = 2 then 2 else 0) ++ ueBits (if p = 2 then 2 else 0)
  guardBytes (packBits (head ++ bitsOf (algoBytes key 1 (Config.encLen key 1))))

/-- NAL units of slice `t.slice`: VPS, SPS and PPS before an IDR's first slice, the slice, and the picture hash after the last one
(R202, R214); `room` bounds their bytes (R215). -/
def sliceNal (t : TeleCtx) (key : Bytes) (room : Nat) : Bytes :=
  let part (k : Nat) : Bytes := algoBytes key (8 * t.slice + k) (Config.encLen key (8 * t.slice + k))
  let heads := if t.idr && t.slice = 0 then nalUnit 32 (part 0) ++ nalUnit 33 (spsBody t key) ++ nalUnit 34 (part 2) else []
  let hash := if t.slice + 1 = t.d.slices then nalUnit 40 (part 4) else []
  (heads ++ nalUnit (if t.idr then 19 else 1) (part 3) ++ hash).take room

/-! ### Statistics (R217) -/

/-- Entry (i, j) of the 8 × 8 Hadamard matrix is 1 or −1. -/
def hadSign (i j : Nat) : Int := if countIf (fun k => (i &&& j).testBit k) (List.range 3) % 2 = 0 then 1 else -1

def sumInt (l : List Int) : Int := l.foldl (· + ·) 0

/-- Sum of the absolute Hadamard coefficients of an 8 × 8 block. -/
def hadSum (f : Nat → Nat → Int) : Nat :=
  let r := List.range 8
  sumNat (r.flatMap fun u => r.map fun v =>
    (sumInt (r.flatMap fun x => r.map fun y => hadSign u x * hadSign v y * f x y)).natAbs)

/-- ACT of CTU `b`, of the source luma. -/
def actOf (t : TeleCtx) (src : Bytes) (b : Nat) : Nat :=
  let n := t.d.wc / 64
  let x0 := b % n * 64
  let y0 := b / n * 64
  min 65535 (sumNat ((List.range 64).map fun k =>
    hadSum fun x y => t.d.luma t.tile src (x0 + k % 8 * 8 + x) (y0 + k / 8 * 8 + y)) / 64)

/-- Luma interpolation taps of a quarter position. -/
def lumaTaps (f : Nat) : List Int :=
  if f = 1 then [-1, 4, -10, 58, 17, -5, 1, 0] else if f = 2 then [-1, 4, -11, 40, 40, -11, 4, -1]
  else if f = 3 then [0, 1, -5, 17, 58, -10, 4, -1] else [0, 0, 0, 64, 0, 0, 0, 0]

def dotInt (a b : List Int) : Int := sumInt ((a.zip b).map fun (x : Int × Int) => x.1 * x.2)

/-- Predicted luma sample at quarter-pel position (qx, qy) of a reference frame, whose edges repeat. -/
def predLuma (d : TeleDesc) (ref : Bytes) (qx qy : Int) : Nat :=
  let bits := if d.s = 2 then 10 else 8
  let at' (x y : Int) : Int :=
    d.sample ref ((max 0 (min y (d.hc - 1))).toNat * d.wc + (max 0 (min x (d.wc - 1))).toNat)
  let ix := qx / 4
  let iy := qy / 4
  let row (y : Int) : Int :=
    dotInt (lumaTaps (qx % 4).toNat) ((List.range 8).map fun (i : Nat) => at' (ix + i - 3) y) / 2 ^ (bits - 8)
  let v := dotInt (lumaTaps (qy % 4).toNat) ((List.range 8).map fun (j : Nat) => row (iy + j - 3)) / 64
  (max 0 (min ((v + 2 ^ (13 - bits)) / 2 ^ (14 - bits)) (2 ^ bits - 1))).toNat

/-- Luma SAD of 16 × 16 block (x0, y0) at a vector, on the 8-bit scale. -/
def sadAt (t : TeleCtx) (src ref : Bytes) (x0 y0 : Nat) (mx my : Int) : Nat :=
  let sh := if t.d.s = 2 then 4 else 1
  min 65535 (sumNat ((List.range 256).map fun k =>
    let x := x0 + k % 16
    let y := y0 + k / 16
    (((t.d.luma t.tile src x y / sh : Nat) : Int) - (predLuma t.d ref (4 * x + mx) (4 * y + my) / sh : Nat)).natAbs))

/-- A quarter-pel component of a vector that lies `n` whole pixels around 0, from a figure of the fixed algorithm. -/
def vecPart (n k : Nat) : Int := (k % (8 * n + 7) : Nat) - (4 * n + 3 : Nat)

/-- Motion record `b`.  The block's mode, reference and vector are the fixed algorithm's; the vector stays within the search range of
R212 and the cost is the SAD at it. -/
def motionRec (t : TeleCtx) (key src : Bytes) (refs : List Bytes) (b : Nat) : Bytes :=
  let n := t.d.wc / 16
  let st (k : Nat) : Nat := Config.statFigure key (4 * b + k)
  let x0 := b % n * 16
  let y0 := b / n * 16
  if t.idr then leBytes 4 0 ++ leBytes 2 (st 0) ++ [0xFF, 1]
  else
    let mode := st 0 % 3
    let mx := vecPart 64 (st 1)
    let my := vecPart 32 (st 2)
    let r := st 3 % max 1 refs.length
    if mode = 1 then leBytes 2 (lowBits 16 mx) ++ leBytes 2 (lowBits 16 my) ++ leBytes 2 (sadAt t src (refs.getD r []) x0 y0 mx my) ++ [0xFF, 1]
    else leBytes 2 (lowBits 16 mx) ++ leBytes 2 (lowBits 16 my) ++ leBytes 2 (sadAt t src (refs.getD r []) x0 y0 mx my)
      ++ leBytes 1 r ++ leBytes 1 mode

/-- Statistics entry of the picture (R217). -/
def statEntry (t : TeleCtx) (src : Bytes) (refs : List Bytes) : Bytes :=
  let d := t.d
  let key := encKey t src refs.flatten
  let mv := d.wc / 16 * (d.hc / 16)
  let cx := (List.range (d.wc / 64 * (d.hc / 64))).flatMap fun b =>
    leBytes 4 (Config.statFigure key (4 * mv + b)) ++ leBytes 2 (actOf t src b) ++ leBytes 1 t.picQp ++ leBytes 1 0
  leBytes 4 t.pic ++ leBytes 4 (if t.classA then t.tick else 0) ++ leBytes 4 t.picBytes ++ leBytes 2 d.wc ++ leBytes 2 d.hc
  ++ leBytes 1 t.picQp ++ leBytes 1 (b2n !t.idr) ++ leBytes 14 0 ++ (List.range mv).flatMap (motionRec t key src refs) ++ cx

/-! ### Annex B streams (R202, R218, R219) -/

/-- What is kept while a byte stream is cut into NAL units: zeros not yet placed, the unit under way, the units before it. -/
structure NalCut where
  zeros : Nat := 0
  cur : Option Bytes := none
  done : List Bytes := []

def NalCut.close (c : NalCut) : List Bytes := match c.cur with | some b => c.done ++ [b] | none => c.done

/-- One byte more: a start code opens a unit, and an emulation prevention byte goes. -/
def NalCut.step (c : NalCut) (b : Byte) : NalCut :=
  if 2 ≤ c.zeros ∧ b = 1 then { zeros := 0, cur := some [], done := c.close }
  else if b = 0 then { c with zeros := c.zeros + 1 }
  else
    let add : Bytes := List.replicate c.zeros 0 ++ (if 2 ≤ c.zeros ∧ b = 3 then [] else [b])
    { c with zeros := 0, cur := c.cur.map fun x => x ++ add }

/-- NAL units of a byte stream, without start codes and emulation prevention. -/
def nalUnits (b : Bytes) : List Bytes := (b.foldl NalCut.step {}).close

def nalType (u : Bytes) : Nat := leAt u 0 1 / 2 % 64

/-- Type of the first coded slice of an access unit. -/
def auSlice (b : Bytes) : Option Nat := ((nalUnits b).map nalType).find? fun t => decide (t < 32)

/-- Its first coded slice is an IRAP picture's. -/
def auIrap (b : Bytes) : Bool := match auSlice b with | some t => between 16 t 23 | none => false

/-- u(n): a fixed-length field. -/
def rdU (n : Nat) (l : List Bool) : Nat × List Bool := ((l.take n).foldl (fun a b => 2 * a + b2n b) 0, l.drop n)

/-- ue(v): an Exp-Golomb code. -/
def rdUe (l : List Bool) : Nat × List Bool :=
  let z := (l.takeWhile fun b => !b).length
  let (v, r) := rdU (z + 1) (l.drop z)
  (v - 1, r)

def rdUes (n : Nat) (l : List Bool) : List Nat × List Bool :=
  match n with
  | 0 => ([], l)
  | n + 1 =>
    let (v, l) := rdUe l
    let (vs, l) := rdUes n l
    (v :: vs, l)

/-- Fields of a sequence parameter set that R202 bounds. -/
structure Sps where
  profile : Nat
  compat : Nat
  tier : Nat
  level : Nat
  chroma : Nat
  w : Nat
  h : Nat
  cropW : Nat
  cropH : Nat
  depthL : Nat
  depthC : Nat
  dpb : Nat
  reorder : Nat
  ctb : Nat

/-- Read an SPS payload (H.265 7.3.2.2) as far as R202 needs it. -/
def spsOf (u : Bytes) : Sps :=
  let l := bitsOf (u.drop 2)
  let (_, l) := rdU 4 l
  let (subs, l) := rdU 3 l
  let (_, l) := rdU 3 l
  let (tier, l) := rdU 1 l
  let (profile, l) := rdU 5 l
  let (compat, l) := rdU 32 l
  let (level, l) := rdU 8 (l.drop 48)
  let subBits := sumNat ((List.range subs).map fun k => 88 * b2n (l.getD (2 * k) false) + 8 * b2n (l.getD (2 * k + 1) false))
  let l := l.drop (if subs = 0 then 0 else 16 + subBits)
  let (_, l) := rdUe l
  let (chroma, l) := rdUe l
  let (_, l) := rdU (if chroma = 3 then 1 else 0) l
  let (wh, l) := rdUes 2 l
  let (crop, l) := rdU 1 l
  let (win, l) := rdUes (if crop = 1 then 4 else 0) l
  let (depth, l) := rdUes 3 l
  let (each, l) := rdU 1 l
  let (ord, l) := rdUes (3 * (if each = 1 then subs + 1 else 1)) l
  let (cb, _) := rdUes 2 l
  let top := ord.length - 3
  { profile := profile, compat := compat, tier := tier, level := level, chroma := chroma, w := wh.getD 0 0, h := wh.getD 1 0
    cropW := 2 * (win.getD 0 0 + win.getD 1 0), cropH := 2 * (win.getD 2 0 + win.getD 3 0)
    depthL := depth.getD 0 0 + 8, depthC := depth.getD 1 0 + 8, dpb := ord.getD top 0, reorder := ord.getD (top + 1) 0
    ctb := cb.getD 0 0 + 3 + cb.getD 1 0 }

/-- Width and height of the cropped picture. -/
def Sps.size (q : Sps) : Nat × Nat := (q.w - q.cropW, q.h - q.cropH)

/-- The stream lies in R202's decode column: Main or Main 10, Main tier up to level 6.2, 4:2:0, the picture sizes, the DPB and the
coding tree. -/
def Sps.ok (q : Sps) : Bool :=
  let main := q.profile = 1 || q.compat.testBit 30
  let main10 := q.profile = 2 || q.compat.testBit 29
  let (w, h) := q.size
  (main || main10) && decide (q.depthL ≤ if main then 8 else 10) && decide (q.depthC ≤ if main then 8 else 10) && q.tier = 0
  && decide (q.level ≤ 186) && q.chroma = 1 && between 64 w 16384 && between 64 h 8704 && w % 2 = 0 && h % 2 = 0
  && decide (q.w * q.h ≤ 35651584) && decide (q.dpb ≤ 6) && between 4 q.ctb 6

/-- Parameter sets of an access unit, and its SPSs. -/
def auParams (b : Bytes) : List Bytes := (nalUnits b).filter fun u => between 32 (nalType u) 34
def auSps (b : Bytes) : List Sps := ((nalUnits b).filter fun u => nalType u = 33).map spsOf

/-- What the decoding of an access unit depends on: the descriptor, the parameter sets, the unit and the frames of the DPB. -/
def decKey (t : TeleCtx) (unit frames : Bytes) : Bytes := t.desc ++ t.params ++ leBytes 4 unit.length ++ unit ++ frames

/-- Does an access unit conform (R219)?  Its size, a coded slice and R202's bounds show in its bytes; whether its syntax and
semantics hold otherwise is H.265's, and stands as a constant of Config. -/
def auConforms (t : TeleCtx) (unit key : Bytes) : Bool :=
  decide (unit.length ≤ 4 * t.d.px) && (auSlice unit).isSome && ((auSps unit).all Sps.ok) && Config.decConforms key

/-- Can a picture be formed from it? -/
def auForms (t : TeleCtx) (unit key : Bytes) : Bool :=
  (auSlice unit).isSome && (auConforms t unit key || Config.decForms key)

/-! ### Class A spans of a tick (R211) -/

/-- Insert a span by its start. -/
def insSpan (l : List (Nat × Nat)) (x : Nat × Nat) : List (Nat × Nat) :=
  match l with
  | [] => [x]
  | y :: r => if x.1 < y.1 then x :: y :: r else y :: insSpan r x

/-- Spans of the class A Telecine items of a tick, in order: START and end. -/
def teleSpans (im : Bytes) : List (Nat × Nat) :=
  ((sheet im).filter fun e => isTeleUnit e.unit).foldl (fun l e => insSpan l (e.start, e.start + e.cycles)) []

/-! ### Output order (R218) -/

/-- Insert a decoded picture by its order count. -/
def insPoc (x : DecPic) : List DecPic → List DecPic
  | [] => [x]
  | y :: r => if x.poc < y.poc then x :: y :: r else y :: insPoc x r

/-- A picture enters the DPB: one that starts a new sequence puts out all before it, and no more than `reorder` pictures wait. -/
def TeleCtx.enter (t : TeleCtx) (x : DecPic) (newSeq : Bool) : TeleCtx :=
  let (due, dpb) := if newSeq then (t.due ++ t.dpb, []) else (t.due, t.dpb)
  let all := insPoc x dpb
  let n := all.length - t.reorder
  { t with due := due ++ all.take n, dpb := all.drop n }

/-- END_OF_STREAM: every picture that waits leaves. -/
def TeleCtx.flush (t : TeleCtx) : TeleCtx := { t with due := t.due ++ t.dpb, dpb := [] }

end Sys2Proof.Machine
end

