-- ==== Sys2Proof/Machine/Telecine.lean ====
section
/-! DEFINITION. The commands of Telecine: slices, completed pictures, starts, halts and CTX_CMD (R203, R211–R220). -/
namespace Sys2Proof.Machine

/-! ### Slices (R214–R216) -/

/-- A bitstream ring record. -/
def ringRec (len pic slice flags qp tick : Nat) (data : Bytes) : Bytes :=
  leBytes 4 len ++ leBytes 4 pic ++ leBytes 2 slice ++ leBytes 1 flags ++ leBytes 1 qp ++ leBytes 4 tick
  ++ fitBytes (roundUp data.length 16) data

/-- Count the bytes that context c wrote to its ring (R221); the count is in units of 64, the rest is kept. -/
def State.teleBytes (s : State) (c n : Nat) : State :=
  let t := s.tctx c
  let s := s.countFor t.part (pgTctx c) 0x58 0x1BC ((t.produced + n) / 64 - t.produced / 64)
  s.modTctx c fun t => { t with produced := t.produced + n, picBytes := t.picBytes + n }

/-- The record at PRODUCED, then PRODUCED; a class A ring that has lost unread bytes says so (R215). -/
def State.putRec (s : State) (c : Nat) (b : Bytes) : Bool × State :=
  let t := s.tctx c
  let ring := t.d.ringAt t.tile
  let a := ring + 64 + t.produced % max 1 t.d.ringLen
  let no (s : State) : Bool × State := (false, s)
  onOk (s.teleWrite c (a + 16) (b.drop 16)) no fun s =>
  onOk (s.teleWrite c a (b.take 16)) no fun s =>
  onOk (s.teleWrite c ring (leBytes 8 (t.produced + b.length))) no fun s =>
    let s := s.teleBytes c b.length
    if !t.classA then (true, s)
    else
      onSome (s.teleRead c (ring + 8) 8) no fun h s =>
        (true, if t.d.ringLen < t.produced + b.length - leNat h then
            (s.countFor t.part (pgTctx c) 0x5C 0x1C0 1).raise (pgTctx c) 8
          else s)

/-- A PAD record that fills the data area to its end.  Its picture, slice, QP and tick are free. -/
def State.putPad (s : State) (c rest : Nat) : Bool × State :=
  let (n, s) := s.draw
  let f (k w : Nat) : Nat := leNat ((List.range w).map fun j => Config.freeByte (n * 16 + k + j))
  s.putRec c (ringRec (rest - 16) (f 0 4) (f 4 2) 16 (f 6 1) (f 7 4) (List.replicate (rest - 16) 0))

/-- Frame of the work area that takes reconstruction n: the one that the oldest picture leaves (R206, R212). -/
def TeleDesc.reconFrame (d : TeleDesc) (n : Nat) : Nat := (Config.firstFrame + n) % (d.refs + 1)

/-- Frames that the picture refers to, the most recent first: none for an IDR, at most REFS for a P picture (R212). -/
def TeleCtx.refFrames (t : TeleCtx) : List Nat :=
  if t.idr then [] else (List.range (min t.d.refs (min t.sinceIdr t.recons))).map fun k => t.d.reconFrame (t.recons - 1 - k)

/-- The source rows and reference frames of the picture, as the store holds them. -/
def State.picSrc (s : State) (c : Nat) : Bytes :=
  let t := s.tctx c
  (t.d.rows t.tile (t.d.pics - t.picsLeft)).flatMap fun x => s.rawMain (s.msBase t.part + x.1) x.2
def State.picRefs (s : State) (c : Nat) : List Bytes :=
  let t := s.tctx c
  t.refFrames.map fun k => s.rawMain (s.msBase t.part + t.d.frameAt t.tile k) t.d.fr
def State.picKey (s : State) (c : Nat) : Bytes := encKey (s.tctx c) (s.picSrc c) (s.picRefs c).flatten

/-- What the engine reads for slice j: its source rows, and with the first slice the reference frames (R210, R216). -/
def TeleCtx.sliceReads (t : TeleCtx) (j : Nat) : List (Nat × Nat) :=
  let d := t.d
  let lo := min d.h (j * d.sliceRows * 64)
  let hi := min d.h ((j + 1) * d.sliceRows * 64)
  let rows := d.rows t.tile (d.pics - t.picsLeft)
  let chroma := if d.mono then [] else ((rows.drop d.h).drop (lo / 2)).take (hi / 2 - lo / 2)
  (if j = 0 then t.refFrames.map fun k => (d.frameAt t.tile k, d.fr) else []) ++ (rows.drop lo).take (hi - lo) ++ chroma

/-- Slice record of the picture in the engine: parameter sets come before every IDR (R214). -/
def State.sliceRec (s : State) (c : Nat) : Bytes :=
  let t := s.tctx c
  let d := t.d
  let nal := sliceNal t (s.picKey c) (d.worst - t.nalBytes - 64 * (d.slices - t.slice))
  ringRec nal.length t.pic t.slice
    (b2n (t.slice = 0) + 2 * b2n (t.slice + 1 = d.slices) + 4 * b2n t.idr + 8 * b2n t.forceIdr
      + 32 * b2n (t.idr && decide (t.slice = 0))) t.picQp (if t.classA then t.tick % 2 ^ 32 else 0) nal

/-- Bytes from PRODUCED to the end of the ring's data area. -/
def TeleCtx.ringRest (t : TeleCtx) : Nat := t.d.ringLen - t.produced % max 1 t.d.ringLen

/-- A PAD record where the slice's record would pass the end of the data area (R214). -/
def State.padFor (s : State) (c : Nat) (b : Bytes) : Bool × State :=
  if (s.tctx c).ringRest < b.length then s.putPad c (s.tctx c).ringRest else (true, s)

/-- The slice goes into the bitstream ring. -/
def State.emitSlice (s : State) (c : Nat) : State :=
  let b := s.sliceRec c
  onOk (s.padFor c b) id fun s =>
  onOk (s.putRec c b) id fun s => s.modTctx c fun t => { t with slice := t.slice + 1, nalBytes := t.nalBytes + b.length }

/-- The last CTU of a slice has been coded: what it needs has been read.  A picture that is coded again writes only the slices not
written already (R216, R220). -/
def State.codeSlice (s : State) (c : Nat) : State :=
  let t := s.tctx c
  onSome (s.teleRows c (t.sliceReads t.slice) []) id fun _ s =>
    if t.slice < t.slicesDone then s.modTctx c fun t => { t with slice := t.slice + 1 } else s.emitSlice c

/-- The engine goes on to other contexts after a halt (R220). -/
def State.goOn (s : State) : State := if s.tele.engine.isNone then s.nextPicture else s

def execSliceEmit (c : Fin 64) (inst : Nat) (s : State) : Out :=
  let s := s.begin.at inst
  let t := s.tctx c.val
  .next (if s.tele.engine ≠ some c.val || t.mode ≠ 1 || t.d.slices ≤ t.slice then s else (s.codeSlice c.val).goOn)

/-! ### Completed pictures (R203, R207, R210, R213, R217–R219) -/

def clampF (f : Int) : Int := max (-(2 ^ 40 : Nat)) (min ((2 ^ 40 : Nat) : Int) f)

/-- Luma pixels and pictures (R221). -/
def State.countPic (s : State) (c : Nat) : State :=
  let t := s.tctx c
  if t.classA then
    (s.countFor t.part pgTele 0x50 0x1B0 (t.d.px / 64)).countFor t.part pgTele 0x58 0x1B4 1
  else
    let s := s.countFor t.part pgTele 0x54 0x1B8 (t.d.px / 64)
    ({ s with fresh := s.fresh + 1 } : State).countMaxFor t.part pgTele 0x5C 0x1D0 (Config.freeNat s.fresh)

/-- The context leaves the engine with one picture fewer to do. -/
def State.leaveEngine (s : State) (c : Nat) (drop : Bool) : State :=
  let s := (s.countPic c).modTctx c fun t =>
    let left := if drop then 0 else t.picsLeft - 1
    { t with
      pic := t.pic + 1, done := t.done + 1, picsLeft := left, slice := 0, slicesDone := 0, picBytes := 0, nalBytes := 0
      forceIdr := false, st := if left = 0 || t.classA then 0 else 3 }
  { s with tele := { s.tele with engine := none } }

/-- The item completes with its last picture. -/
def State.endFiring (s : State) (i : Item) : State :=
  if (List.range 64).any fun k => (s.tctx k).item = i.id && (s.tctx k).picsLeft ≠ 0 then s
  else ((List.range 64).foldl (fun s k => if (s.tctx k).item = i.id then s.modTctx k fun t => { t with item := 0, st := 0 } else s) s).completeItem i

/-- A picture ends. -/
def State.picEnd (s : State) (c : Nat) (drop : Bool) : State :=
  let s := s.leaveEngine c drop
  match s.item (s.tctx c).item with
  | none => s
  | some i => s.endFiring i

/-- The reconstruction of the picture goes to its frame. -/
def State.writeRecon (s : State) (c : Nat) (key : Bytes) : Bool × State :=
  let t := s.tctx c
  s.teleWrite c (t.d.frameAt t.tile (t.d.reconFrame t.recons)) ((List.range t.d.fr).map (Config.encRecon key))

/-- Statistics entry first, PRODUCED last. -/
def State.writeStats (s : State) (c : Nat) (entry : Bytes) : Bool × State :=
  let t := s.tctx c
  let d := t.d
  let no (s : State) : Bool × State := (false, s)
  onOk (s.teleWrite c (d.statAt t.tile + 64 + t.pic % max 1 d.n2 * d.statLen) entry) no fun s =>
  onOk (s.teleWrite c (d.statAt t.tile) (leBytes 8 (t.statProduced + 1))) no fun s =>
    (true, s.modTctx c fun t => { t with statProduced := t.statProduced + 1 })

/-- An encode picture ends: its reconstruction and statistics are written. -/
def State.encodeDone (s : State) (c : Nat) : State :=
  let t := s.tctx c
  let entry := statEntry t (s.picSrc c) (s.picRefs c)
  onOk (s.writeRecon c (s.picKey c)) id fun s =>
  onOk (s.writeStats c entry) id fun s =>
    let s := s.modTctx c fun t => { t with
      qp := t.picQp, interPic := !t.idr, recons := t.recons + 1, sinceIdr := if t.idr then 1 else t.sinceIdr + 1
      full := if t.d.rc % 4 = 1 then clampF (t.full + t.picBytes * 8 - t.d.targetBits) else t.full }
    s.picEnd c false

/-- The output slot of a picture (R218): header and frame, then PRODUCED. -/
def State.putSlot (s : State) (c : Nat) (x : DecPic) : Bool × State :=
  let t := s.tctx c
  let d := t.d
  let head := leBytes 4 x.pic ++ leBytes 4 (lowBits 32 x.poc) ++ leBytes 2 x.w ++ leBytes 2 x.h ++ leBytes 4 x.flags ++ leBytes 48 0
  let no (s : State) : Bool × State := (false, s)
  onOk (s.teleWrite c (d.ringAt t.tile + 64 + t.outCount % max 1 d.n2 * (64 + d.fr)) (head ++ fitBytes d.fr x.frame)) no fun s =>
  onOk (s.teleWrite c (d.ringAt t.tile) (leBytes 8 (t.outCount + 1))) no fun s =>
    (true, (s.teleBytes c (64 + d.fr)).modTctx c fun t => { t with outCount := t.outCount + 1 })

/-- Pictures whose turn has come leave while an output slot is free. -/
def State.drainDue (s : State) (c fuel : Nat) : Bool × State :=
  match fuel with
  | 0 => (true, s)
  | fuel + 1 =>
    match (s.tctx c).due with
    | [] => (true, s)
    | x :: r =>
      if !s.slotFree c then (true, s)
      else onOk (s.putSlot c x) (fun s => (false, s)) fun s => (s.modTctx c fun t => { t with due := r }).drainDue c fuel

/-- CONSUMED of the input ring moves past the access unit. -/
def State.consumeAu (s : State) (c len : Nat) : Bool × State :=
  let t := s.tctx c
  let n := t.consumed + 16 + roundUp len 16
  onOk (s.teleWrite c (t.d.src + 8) (leBytes 8 n)) (fun s => (false, s)) fun s =>
    (true, s.modTctx c fun t => { t with consumed := n })

/-- A nonconforming access unit is counted, and the units after it are skipped up to the next IRAP (R219). -/
def State.markAu (s : State) (c : Nat) (bad : Bool) : State :=
  (if bad then (s.countFor (s.tctx c).part (pgTctx c) 0x60 0x1C4 1).raise (pgTctx c) 9 else s).modTctx c
    fun t => { t with skipping := bad }

/-- Read n bytes of the input ring's data at position o, in two parts where they wrap. -/
def State.ringRead (s : State) (c o n : Nat) : Option Bytes × State :=
  let d := (s.tctx c).d
  let m := max 1 d.ringLen
  let k := min n (m - o % m)
  s.teleRows c ((if k = 0 then [] else [(d.src + 64 + o % m, k)]) ++ (if n - k = 0 then [] else [(d.src + 64, n - k)])) []

/-- The parameter sets of an access unit take force; a new SPS brings its size and its output delay. -/
def TeleCtx.withParams (t : TeleCtx) (unit : Bytes) : TeleCtx :=
  let ps := (auParams unit).flatten
  match (auSps unit).getLast? with
  | some q => { t with params := ps, reorder := q.reorder, size := q.size }
  | none => { t with params := t.params ++ ps }

/-- The picture that decoding `unit` forms (R218, R219). -/
def decPic (t : TeleCtx) (key : Bytes) (bad : Bool) : DecPic :=
  let hash := Config.decHash key % 3
  { pic := t.pic, poc := Config.decPoc key, flags := b2n bad + 2 * b2n (hash = 1) + 4 * b2n (hash = 2)
    w := if t.size.1 = 0 then t.d.w else t.size.1, h := if t.size.1 = 0 then t.d.h else t.size.2
    frame := (List.range t.d.fr).map (Config.decByte key) }

/-- A formed picture takes a frame of the DPB, and those whose turn has come leave. -/
def State.formPic (s : State) (c : Nat) (unit key : Bytes) (bad : Bool) : Bool × State :=
  let t := s.tctx c
  let x := decPic t key bad
  onOk (s.teleWrite c (t.d.frameAt t.tile (Config.decFrame key % 7)) x.frame) (fun s => (false, s)) fun s =>
    let s := s.modTctx c fun t => t.enter x (match auSlice unit with | some ty => between 16 ty 20 | none => false)
    (true, if x.flags.testBit 2 then (s.countFor t.part (pgTctx c) 0x68 0x1CC 1).raise (pgTctx c) 10 else s)

/-- Addresses of the DPB frames that a decode refers to. -/
def TeleCtx.dpbReads (t : TeleCtx) (key : Bytes) : List (Nat × Nat) :=
  ((List.range 7).filter fun k => (Config.decRefs key).testBit k).map fun k => (t.d.frameAt t.tile k, t.d.fr)

/-- An access unit of `len` bytes has been decoded: it is read, its picture is formed where it has one, and the unit is consumed. -/
def State.decodeAu (s : State) (c len flags : Nat) : State :=
  let t := s.tctx c
  onSome (s.ringRead c t.consumed (16 + roundUp len 16)) id fun b s =>
    let unit := (b.drop 16).take len
    let t := t.withParams unit
    let key := decKey t unit (s.rawMain (s.msBase t.part + t.d.frameAt t.tile 0) (7 * t.d.fr))
    let bad := !auConforms t unit key
    onSome (if (auSlice unit).isSome then s.teleRows c (t.dpbReads key) [] else (some [], s)) id fun _ s =>
    let s := (s.markAu c bad).modTctx c fun u => { u with params := t.params, reorder := t.reorder, size := t.size }
    onOk (if auForms t unit key then s.formPic c unit key bad else (true, s)) id fun s =>
    onOk (s.consumeAu c len) id fun s =>
      let last := flags % 2 = 1
      let s := s.modTctx c fun t =>
        { (if last then t.flush else t) with qp := Config.decQp key % 64, interPic := Config.decInter key }
      ((s.drainDue c 32).2).picEnd c last

/-- A decode picture ends. -/
def State.decodeDone (s : State) (c : Nat) : State :=
  match s.nextAu c with
  | none => s
  | some (len, flags, _) => s.decodeAu c len flags

/-- The engine finishes a picture and starts the next one of any context whose turn it is. -/
def execPictureDone (c : Fin 64) (inst : Nat) (s : State) : Out :=
  let s := s.begin.at inst
  let t := s.tctx c.val
  .next (if s.tele.engine ≠ some c.val then s
    else if t.mode = 2 then (s.decodeDone c.val).nextPicture
    else if t.slice < t.d.slices then s
    else (s.encodeDone c.val).nextPicture)

/-! ### Starts in a gap (R211, R215, R218, R219) -/

/-- END_OF_STREAM in a unit that is skipped: what waits leaves, and the firing ends. -/
def State.endStream (s : State) (c : Nat) : State :=
  let s := s.modTctx c fun t => { t.flush with picsLeft := 0, st := 0 }
  let s := (s.drainDue c 32).2
  match s.item (s.tctx c).item with
  | none => s
  | some i => s.endFiring i

/-- Access units up to the next IRAP are skipped and counted. -/
def State.skipAus (s : State) (c fuel : Nat) : State :=
  match fuel with
  | 0 => s
  | fuel + 1 =>
    if !(s.tctx c).skipping then s
    else (s.nextAu c).elim s fun (au : Nat × Nat × Bytes) =>
      if auIrap au.2.2 then s.modTctx c fun t => { t with skipping := false }
      else
        onOk ((s.countFor (s.tctx c).part (pgTctx c) 0x64 0x1C8 1).consumeAu c au.1) id fun s =>
          if au.2.1 % 2 = 1 then s.endStream c else s.skipAus c fuel

/-- Does a class B or C picture of `need` cycles that starts at `inst` end by the nominal START of the next class A Telecine item?
The next tick's is counted from a tick of nine tenths of P_cyc, and a nominal span stays shut however late its item is (R211). -/
def State.gapOpen (s : State) (inst need : Nat) : Bool :=
  match s.classA with
  | none => true
  | some r =>
    let pos := (inst - s.clap.last) / 15
    let l := teleSpans r.image
    match l.find? fun x => decide (pos < x.2) with
    | some x => decide (pos + need ≤ x.1)
    | none =>
      match l with
      | [] => true
      | a :: _ => decide (pos + need ≤ s.pCyc * 9 / 10 + a.1)

/-- A waiting picture gets the engine where its span is open. -/
def State.gapStart (s : State) (c inst : Nat) : State :=
  if s.picReady c && s.firstTile c && s.gapOpen inst (s.tctx c).d.picCycles then (s.startPicture c).goOn else s

def execDecodePictureStart (x : PicStart) (s : State) : Out :=
  let s := s.begin.at x.inst
  let c := x.ctx.val
  let t := s.tctx c
  .next (if t.mode ≠ 2 || t.st ≠ 3 || t.picsLeft = 0 then s
    else onOk (s.drainDue c 32) id fun s => (s.skipAus c 64).gapStart c x.inst)

def execEncodePictureStart (x : PicStart) (s : State) : Out :=
  let s := s.begin.at x.inst
  let t := s.tctx x.ctx.val
  .next (if t.mode ≠ 1 || t.classA then s else s.gapStart x.ctx.val x.inst)

/-! ### Halts and CTX_CMD (R220) -/

def teleCauseNo : TelecineFault → Nat
  | .engine => 1 | .readBus => 2 | .writeBus => 3 | .poisoned => 4 | .rmwParity => 5

def execTelecineContextHalt (c : Fin 64) (k : TelecineFault) (addr : Nat) (s : State) : Out :=
  let s := s.begin
  .next (if s.tele.engine = some c.val then ((s.realFault (pgTctx c.val)).haltCtx c.val (teleCauseNo k) addr).nextPicture else s)

/-- RESTART_IDR: the picture is abandoned, and a class A item with it (R52). -/
def State.restartIdr (s : State) (c : Nat) : State :=
  let t := s.tctx c
  let s := s.endTele c
  match s.item t.item with
  | none => s
  | some i => if i.cls = 1 then (s.abandon i).killTick i.tick else s.stopItem i 0

/-- RESUME: the picture is coded again from its start. -/
def State.resumePicture (s : State) (c : Nat) : State :=
  s.modTctx c fun t => { t with st := if t.classA then 0 else 3, slicesDone := max t.slicesDone t.slice, slice := 0 }

def State.ctxCmd (s : State) (c : Nat) (v : Word) : State :=
  if (s.tctx c).st ≠ 2 then s
  else if bit v 1 then (s.restartIdr c).nextPicture
  else if bit v 0 then (s.resumePicture c).nextPicture
  else s

def execCtxCmdResume (c : Fin 64) (s : State) : Out := .next (s.begin.gated (pgTctx c.val) 0x40 1 fun s w => s.ctxCmd c.val w)
def execCtxCmdRestartIdr (c : Fin 64) (s : State) : Out := .next (s.begin.gated (pgTctx c.val) 0x40 2 fun s w => s.ctxCmd c.val w)

end Sys2Proof.Machine
end

