-- ==== Sys2Proof/Machine/Plan.lean ====
section
/-! DEFINITION. Dispatch: where the items of a call sheet go, their predecessors, and when a class may dispatch
(R24, R36, R37, R48, R49, R107, R138, R253, R370). -/
namespace Sys2Proof.Machine

/-! ### Which units take work -/

/-- A unit takes new work: enabled, powered and, where it has a FENCE, not fenced (R107, R138, R253, R368). -/
def State.usable (s : State) (pg : Nat) : Bool :=
  let k := pageKind pg
  (s.hdr pg).enable && !(s.hdr pg).rstBusy && s.unitReady pg &&
  !((k = .prime || k = .draw || k = .focus) && s.fenced pg)

/-- Prime cells that no class A reel holds and that are not fenced, in ascending order (R24, R37). -/
def State.freeCells (s : State) : List Nat :=
  let held := match s.classA with | some r => r.cells | none => []
  (List.range 224).filter fun c => !held.contains c && s.usable (pgPrime c)

/-- Draw cell or focus pipe for an item: the one that it names, or the lowest that takes work (R138). -/
def State.spread (s : State) (named : Nat) (all : List Nat) : Option Nat :=
  if s.usable named then some named else all.find? s.usable

/-- Page of the physical unit of a call-sheet UNIT. -/
def State.unitPage (s : State) (r : Reel) (free : List Nat) (unit : Nat) : Option Nat :=
  if unit < 0xE0 then
    if r.cls = 1 then r.cells[unit]?.map pgPrime else free[unit]?.map pgPrime
  else if 0x100 ≤ unit ∧ unit < 0x120 then s.spread (pgDraw (unit - 0x100)) ((List.range 32).map pgDraw)
  else if 0x200 ≤ unit ∧ unit < 0x210 then s.spread (pgFocus (unit - 0x200)) ((List.range 16).map pgFocus)
  else if unit = 0x300 then if s.usable pgCutter then some pgCutter else none
  else if unit = 0x301 then if s.usable pgFraming || r.cls = 1 then some pgFraming else none
  else if 0x400 ≤ unit ∧ unit < 0x440 then
    match r.teleCtx[unit - 0x400]? with
    | some c => if (s.usable pgTele && s.usable (pgTctx c)) || r.cls = 1 then some (pgTctx c) else none
    | none => none
  else if 0x500 ≤ unit ∧ unit < 0x520 then
    if r.cls = 1 then r.channels[unit - 0x500]?.map pgChan
    else if s.usable pgSplicer then some pgSplicer else none
  else none

/-! ### One dispatch -/

/-- What a dispatch is for. -/
structure Job where
  cls : Nat
  tick : Nat := 0
  ctx : Nat := 0
  step : Nat := 0
  slot : Nat := 0
  deriving DecidableEq, Repr

/-- Ids of an item's predecessors: this dispatch's from `base`, a marked one's from the dispatch before (R36). -/
def State.predIds (s : State) (r : Reel) (j : Job) (base : Nat) (q : Nat) : Option Nat :=
  if q < 0x8000 then some (base + q)
  else
    (s.sched.items.find? fun i => i.cls = 1 && i.p = r.p && i.handle = r.handle && decide (i.tick < j.tick)
      && decide (j.tick ≤ i.tick + 1) && i.idx = q - 0x8000 && i.open').map fun i => i.id

/-- Channels for the Splicer items of a class B or C dispatch: the lowest free ones, in item order. -/
def State.chanPages (s : State) : List Nat :=
  ((List.range 32).filter fun c => let k := s.chan c; k.st = 0 && !k.classA && k.item = 0 && s.usable (pgChan c)
    && !(s.sched.items.any fun i => i.page = pgChan c && i.open')).map pgChan

/-- Part of a class B sheet that a step runs: prefill works on prime cells and decode on draw cells, attention in both on focus
pipes; the logits of both come from a LOGITS item (R24, R112; DEDUCED, log entry 86). -/
inductive Phase where
  | whole | prefill | decode
  deriving DecidableEq, Repr

def Phase.takes (f : Phase) (e : SheetItem) : Bool :=
  match f with
  | .whole => true
  | .prefill => !(decide (0x100 ≤ e.unit) && decide (e.unit < 0x120)) || e.op ≠ 0x20
  | .decode => !decide (e.unit < 0xE0)

/-- Items with their pages; none when a unit is missing. -/
def State.placeSheet (s : State) (r : Reel) (f : Phase := .whole) : Option (List (SheetItem × Nat)) :=
  let free := s.freeCells
  let l := (sheet r.image).filter f.takes
  let spl := (l.filter fun e => 0x500 ≤ e.unit).map (·.idx)
  let chans := s.chanPages
  let put := l.map fun e => (e, match s.unitPage r free e.unit with
    | some pg => if pg = pgSplicer then chans[spl.idxOf e.idx]? else some pg
    | none => none)
  if put.any fun (x : SheetItem × Option Nat) => x.2.isNone then none
  else some (put.map fun (x : SheetItem × Option Nat) => (x.1, x.2.getD 0))

/-- Put the items of one dispatch into the scoreboard; items that it leaves out are no predecessors.  Every item also waits for
`after`, the items of the chunk before (R151).  In a reel's first dispatch an item with a marked predecessor is skipped (R36). -/
def State.addItems (s : State) (r : Reel) (j : Job) (after : List Nat) (l : List (SheetItem × Nat)) : State :=
  let base := s.sched.nextId
  let items : List Item := l.map fun (x : SheetItem × Nat) =>
    let e := x.1
    { id := base + e.idx, p := r.p, cls := j.cls, handle := r.handle, idx := e.idx, tick := j.tick, ctx := j.ctx, step := j.step,
      slot := j.slot, unit := e.unit, page := x.2, start := e.start, cycles := e.cycles,
      preds := (e.preds.filter fun q => decide (0x8000 ≤ q) || l.any fun y => y.1.idx = q).filterMap (s.predIds r j base) ++ after, op := e.op, desc := e.desc,
      st := if !r.dispatched && e.preds.any (fun q => decide (0x8000 ≤ q)) then ItemSt.done else ItemSt.waiting }
  let s := { s with sched := { s.sched with items := s.sched.items ++ items, nextId := base + sheetCount r.image } }
  let s := (items.filter fun i => i.st = ItemSt.done).foldl (fun s i => s.releaseSuccs i.id) s
  let s := (items.filter fun i => i.spl && i.st = ItemSt.waiting).foldl State.armItem s
  s.modReel r.p r.handle fun r => { r with dispatched := true }

/-! ### When a class may dispatch (R49, R370) -/

def State.mayDispatch (s : State) (p cls : Nat) : Bool :=
  let even := s.clap.num % 2 = 0
  let byLevel := match s.power.level with
    | 0 => true
    | 1 => cls = 2 || even
    | 2 => cls = 2
    | 3 => cls = 2 && even
    | _ => false
  byLevel && field (s.rd pgSched (0x80 + 4 * p)) 0 8 ≠ 0

/-! ### Hot descriptors (R143) -/

def hotCap : Nat := 32768

/-- A context with a request outstanding or an item in flight stays hot. -/
def State.keepsHot (s : State) (i : Nat) : Bool :=
  (s.desc i).run || s.sched.items.any fun x => x.cls = 2 && x.ctx = i && (x.st = .waiting || x.st = .running || x.st = .halted)

/-- Without the least recently used descriptor that may be evicted; the most recently used stands first. -/
def State.evictHot (s : State) (l : List Nat) : List Nat :=
  match l.reverse.find? fun i => !s.keepsHot i with
  | some i => l.erase i
  | none => l

/-- The script core fetches a descriptor or uses it: it is the most recently used one. -/
def State.touchHot (s : State) (i : Nat) : State :=
  let l := s.script.hot
  let l := if l.contains i then l.erase i else if hotCap ≤ l.length then s.evictHot l else l
  { s with script := { s.script with hot := i :: l } }

/-- Non-class-A scoreboard entries are all in use, or no hot descriptor can be freed (R49, R143). -/
def State.boardFull (s : State) : Bool :=
  decide (57344 ≤ countIf (fun i => !(i.cls = 1)) s.sched.items)
  || (decide (hotCap ≤ s.script.hot.length) && s.script.hot.all s.keepsHot)

end Sys2Proof.Machine
end

