-- ==== Sys2Proof/Machine/Requests.lean ====
section
/-! DEFINITION. Contexts at the slate: their cache geometry, the steps of a run, what a step records, and how a run ends
(R140–R159). -/
namespace Sys2Proof.Machine

/-! ### A reel's attention and logits (R115, R124, R148) -/

structure Attend where
  layer : Nat
  group : Nat
  rank : Nat
  dpos : Nat
  wfmt : Nat
  deriving DecidableEq, Repr

def attendOf (im : Bytes) (e : SheetItem) : Attend :=
  let o := e.desc
  { layer := leAt im (o + 14) 2, group := leAt im (o + 16) 2, rank := leAt im (o + 6) 2, dpos := leAt im (o + 8) 1,
    wfmt := leAt im (o + 3) 1 % 16 }

def opAttend : Nat := 0x30
def opLogits : Nat := 0x21

def reelAttends (im : Bytes) : List Attend := ((sheet im).filter fun e => e.op = opAttend).map (attendOf im)
def reelLogits (im : Bytes) : List SheetItem := (sheet im).filter fun e => e.op = opLogits

def Attend.key (a : Attend) : Nat := a.layer * 65536 + a.group

/-- Insert by (LAYER, GROUP), dropping a pair that is there. -/
def insPair (l : List Attend) (a : Attend) : List Attend :=
  match l with
  | [] => [a]
  | b :: r => if a.key < b.key then a :: b :: r else if a.key = b.key then b :: r else b :: insPair r a

/-- Distinct (LAYER, GROUP) pairs, ascending. -/
def reelPairs (im : Bytes) : List Attend := (reelAttends im).foldl insPair []

/-- Bytes of a cache block (R117). -/
def blockSize (a : Attend) (cfmt : Nat) : Nat :=
  roundUp (64 + (64 * a.rank * fmtBits (cfmt % 16) + 64 * a.dpos * fmtBits (cfmt / 16)) / 8) 64

/-- SLOT_BYTES, LG and GEOM (R148). -/
def slotBytes (ps : List Attend) (cfmt : Nat) : Nat := maxNat (ps.map fun a => blockSize a cfmt)
def geomOf (ps : List Attend) (cfmt : Nat) : Bytes :=
  (sha3 (ps.flatMap fun a => leBytes 2 a.layer ++ leBytes 2 a.group ++ leBytes 2 a.rank ++ leBytes 1 a.dpos ++ leBytes 1 cfmt)).take 8

/-- CAP of a cache area (R152). -/
def capOf (len lg slot : Nat) : Nat := len / max 1 (lg * slot) * 64
def Desc.cap (d : Desc) : Nat := capOf d.cacheLen d.lg d.slotBytes

/-- Is stored format `st` contained in working format `w` (R120)? -/
def contained (st w : Nat) : Bool :=
  match st with
  | 0x1 => w = 2 || w = 3 || w = 0xA || w = 0xB
  | 0x0 => w = 0xA || w = 0xB
  | 0x2 => w = 2 || w = 0xA || w = 0xB
  | 0x3 => w = 3 || w = 0xA || w = 0xB
  | 0xA => w = 0xA
  | 0xB => w = 0xB
  | _ => false

/-- Formats that a cache may store (R120). -/
def storable (f : Nat) : Bool := decide (f ≤ 3) || f = 0xA || f = 0xB

/-! ### Parameters (R144) -/

def Desc.par (d : Desc) (o n : Nat) : Nat := leAt d.params o n
def Desc.temp (d : Desc) : Nat := d.par 0 4
def Desc.stops (d : Desc) : List Nat := ((List.range 4).map fun k => d.par (0x20 + 4 * k) 4).filter fun t => !(t = 0xFFFFFFFF)
def Desc.ttl (d : Desc) : Nat := d.par 0x30 4
def Desc.cfmt (d : Desc) : Nat := d.par 0x34 1
def Desc.endRetire (d : Desc) : Bool := (d.par 0x35 1).testBit 0

/-- A grammar reel's constants section (R163). -/
def Reel.gram (r : Reel) : Bytes := (r.image.drop (constOff r.image)).take (constLen r.image)

def State.gramOf (s : State) (p h : Nat) : Option Bytes :=
  match s.findReel p h with | some r => if r.grammar then some r.gram else none | none => none

/-! ### Block headers (R117, R118, R152, R154) -/

/-- Partition-space address of pair j's slot of block b. -/
def Desc.slotAt (d : Desc) (b j : Nat) : Nat := d.cacheAddr + (b * d.lg + j) * d.slotBytes

/-- A fresh block header: COUNT, VALID and COMMIT are 0. -/
def newHeader (i b : Nat) (a : Attend) (cfmt : Nat) : Bytes :=
  leBytes 4 (64 * b) ++ leBytes 4 (i % 2 ^ 20) ++ leBytes 2 a.layer ++ leBytes 2 a.group ++ leBytes 1 cfmt ++ leBytes 1 0
  ++ leBytes 2 a.rank ++ leBytes 1 a.dpos ++ leBytes 47 0

/-- At the dispatch of the first row at a block's first position, its slots get their headers. -/
def State.openBlocks (s : State) (p i : Nat) (d : Desc) (ps : List Attend) (rows : List Nat) : State :=
  (rows.filter fun q => q % 64 = 0).foldl (fun s q =>
    (List.range ps.length).foldl (fun s j =>
      match ps[j]? with
      | some a => (s.store { p := p, unit := scriptUnit } (d.slotAt (q / 64) j) (newHeader i (q / 64) a d.cfmt)).2
      | none => s) s) s

/-- Set or clear an entry's VALID and COMMIT: 0 commits, 1 clears both. -/
def State.markEntry (s : State) (p : Nat) (d : Desc) (how q : Nat) : State :=
  (List.range d.lg).foldl (fun s j =>
    let a := d.slotAt (q / 64) j
    match s.load { p := p, unit := scriptUnit } a 64 with
    | (.error _, s) => s
    | (.ok h, s) =>
      let m := 2 ^ (q % 64)
      let v := leAt h 0x18 8
      let c := leAt h 0x20 8
      let clear (x : Nat) : Nat := if x.testBit (q % 64) then x - m else x
      let h' := if how = 0 then h.take 0x20 ++ leBytes 8 (c ||| m) ++ h.drop 0x28
        else h.take 0x18 ++ leBytes 8 (clear v) ++ leBytes 8 (clear c) ++ h.drop 0x28
      (s.store { p := p, unit := scriptUnit } a h').2) s

def State.markEntries (s : State) (p : Nat) (d : Desc) (how : Nat) (qs : List Nat) : State :=
  qs.foldl (fun s q => s.markEntry p d how q) s

/-! ### Retiring (R150, R157, R338) -/

/-- The context leaves with a cause; its park granules are released. -/
def State.retireCtx (s : State) (p i cause : Nat) : State :=
  let s := s.parkFree p i
  (s.setDesc i fun d => { d with state := 5, cause := cause, run := false, deadline := 0, parkFirst := 0, parkGran := 0 }).wantCkpt p i 3

/-- A descriptor that fails CHECK, on a fetch (R142): its granules stay held. -/
def State.retireCorrupt (s : State) (p i : Nat) : State :=
  (s.setDesc i fun d => { d with state := 5, cause := 4, run := false }).wantCkpt p i 3

/-! ### How a run ends (R149, R151, R155, R156) -/

def endMax : Nat := 1
def endStop : Nat := 2
def endGram : Nat := 3
def endCap : Nat := 4
def endCancel : Nat := 5
def endFault : Nat := 6
def endPrefill : Nat := 7
def endNoTok : Nat := 8
def endStep : Nat := 9

/-- The COMPLETED record of a context request; work left over from an unfinished slate completes one slate later (R403, R405). -/
def State.completeCtx (s : State) (p reason slot : Nat) (r : Req) (reh : Bool := false) : State :=
  if s.script.stalled then { s with script := { s.script with deferred := s.script.deferred ++ [(p, slot, reason, r)] } }
  else (s.unreserve p).writeResult p { reqRec 3 reason slot r with flags := 4 * b2n reh }

/-- The output area: new tokens; POS, STEP and DRAFTS; END; COUNT last (R149). -/
def State.writeOut (s : State) (i : Nat) (run : Run) (toks : List Nat) (fin : Nat) : State :=
  let d := s.desc i
  let q : Requester := { p := run.p, unit := scriptUnit }
  let a := run.req.addr1
  let n := run.count + toks.length
  let s := if toks.isEmpty then s else (s.store q (a + 0x40 + 4 * run.count) (toks.flatMap (leBytes 4))).2
  let s := (s.store q a (leBytes 4 run.req.seq)).2
  let s := (s.store q (a + 8) (leBytes 4 d.pos ++ leBytes 1 0 ++ leBytes 1 run.drafts ++ leBytes 2 0 ++ leBytes 8 d.step ++ leBytes 40 0)).2
  let s := if fin = 0 then s else (s.store q (a + 0xC) (leBytes 1 fin)).2
  (s.store q (a + 4) (leBytes 4 n)).2

def State.dropRun (s : State) (p i : Nat) : State :=
  { s with script := { s.script with runs := s.script.runs.filter fun r => !(r.p = p && r.idx = i) } }

/-- The outstanding cancel of a run completes, and RETIRE retires the context (R155). -/
def State.finishCancel (s : State) (run : Run) : State :=
  match run.cancel with
  | none => s
  | some (seq, slot, tag, retire) =>
    let r : Req := { seq := seq, cls := 2, tag := tag, handle := run.idx }
    let s := s.completeCtx run.p 0 slot r
    if retire && (s.desc run.idx).state ≠ 5 then s.retireCtx run.p run.idx 2 else s

/-- A run ends with `fin` and a reason. -/
def State.finishRun (s : State) (run : Run) (toks : List Nat) (fin reason : Nat) : State :=
  let i := run.idx
  let s := s.writeOut i run toks fin
  let s := s.dropRun run.p i
  let d := s.desc i
  let n := run.count + toks.length
  let retire : Bool := (fin = endStop || fin = endGram || fin = endCap) && d.endRetire
  let s := s.setDesc i fun d => { d with
    endCode := fin, run := false, runCount := n, runLeft := run.req.arg0 - n
    state := if d.pos = 0 then 1 else 3 }
  let s := if retire then s.retireCtx run.p i 1 else s.wantCkpt run.p i 1
  (s.completeCtx run.p reason run.slot run.req run.rehearsal).finishCancel run

/-- A run whose committed state is lost: the context is retired (R156). -/
def State.loseCtx (s : State) (run : Run) : State :=
  let i := run.idx
  let s := (s.writeOut i run [] endFault).dropRun run.p i
  let s := (s.setDesc i fun d => { d with endCode := endFault }).retireCtx run.p i 4
  (s.completeCtx run.p 0x5A run.slot run.req run.rehearsal).finishCancel run

/-! ### Recording a step (R151, R153–R156) -/

/-- Leading drafts that equal the selections before them (R153). -/
def acceptedDrafts (drafts : List Nat) (sel : List (Option Nat)) : Nat :=
  match drafts, sel with
  | d :: ds, some t :: ts => if d = t then 1 + acceptedDrafts ds ts else 0
  | _, _ => 0

/-- End condition after a selected token, in the order of R151; 0 for none. -/
def endCond (d : Desc) (left cap t n pos gend : Nat) : Nat :=
  if d.stops.contains t || gend = 2 then endStop
  else if gend = 1 then endGram
  else if left ≤ n then endMax
  else if cap ≤ pos then endCap
  else 0

/-- Tokens that a step emits, its end code and the grammar state after them. -/
def emitted (d : Desc) (left cap : Nat) (count pos gst : Nat) (sel : List (Option Nat)) (gs ge : List Nat) (max' : Nat) : List Nat × Nat × Nat :=
  match max', sel with
  | 0, _ => ([], 0, gst)
  | _, [] => ([], 0, gst)
  | _, none :: _ => ([], endNoTok, gst)
  | k + 1, some t :: r =>
    let g := gs.headD gst
    let e := endCond d left cap t (count + 1) (pos + 1) (ge.headD 0)
    if e ≠ 0 then ([t], e, g)
    else
      let (ts, e, g) := emitted d left cap (count + 1) (pos + 1) g r gs.tail ge.tail k
      (t :: ts, e, g)

/-- CKPT_BLOCKS cache blocks have filled since the last checkpoint (R338). -/
def State.blockCkpt (s : State) (p i : Nat) : State :=
  if (mget (fun _ => 0) s.twin.ckptPos i) / 64 + s.ckptBlocks ≤ (s.desc i).pos / 64 then s.wantCkpt p i 1 else s

/-- A step that is abandoned or discarded: its entries and those of the steps behind it are cleared (R154–R156). -/
def State.dropStep (s : State) (run : Run) : State :=
  let s := s.markEntries run.p (s.desc run.idx) 1 (run.rows.map fun (x : Nat × Nat) => x.1)
  if run.failed then s.finishRun run [] endFault 0x59 else s.finishRun run [] endCancel 0x58

/-- Prefill chunks in front of the last one are recorded: each is a step of its own (R151). -/
def State.recordChunks (s : State) (run : Run) (n : Nat) : State :=
  if n = 0 then s
  else
    let s := s.setDesc run.idx fun d => { d with
      pos := d.pos + 256 * n, step := (d.step + n) % 2 ^ 44, hasLast := false }
    (s.blockCkpt run.p run.idx).modRun run.p run.idx fun r => { r with rows := r.rows.drop (256 * n), doneSteps := r.doneSteps - n }

/-- Record the steps of a run that have completed (STEP_RECORDED, DRAFT_JUDGED). -/
def State.recordStep (s : State) (run : Run) : State :=
  let i := run.idx
  if run.lostState then s.loseCtx run
  else if run.cancel.isSome && !run.failed then s.dropStep run
  else if run.prefill && (run.failed || decide (run.doneSteps < ceilDiv run.rows.length 256)) then
    -- the chunks that completed are recorded, also those in front of one that failed
    let n := min run.doneSteps (ceilDiv run.rows.length 256 - 1)
    let s := s.recordChunks run n
    if run.failed then s.dropStep { run with rows := run.rows.drop (256 * n) } else s
  else if run.failed then s.dropStep run
  else if run.prefill then
    let n := ceilDiv run.rows.length 256 - 1
    let s := s.recordChunks run n
    let run := { run with rows := run.rows.drop (256 * n) }
    let d := s.desc i
    let (toks, e, g) := emitted d run.req.arg0 d.cap run.count (d.pos + run.rows.length - 1) d.gramState run.sel run.gstates run.gends 1
    let s := s.setDesc i fun d => { d with
      state := 3, pos := d.pos + run.rows.length, step := (d.step + 1) % 2 ^ 44, gen := d.gen + toks.length
      hasLast := !toks.isEmpty, lastToken := toks.getLastD d.lastToken, gramState := g
      runCount := run.count + toks.length, runLeft := run.req.arg0 - (run.count + toks.length) }
    let s := (s.blockCkpt run.p i).profile run.p fun f => { f with tokens := f.tokens + toks.length }
    if run.req.arg0 = 0 then s.finishRun run [] endPrefill 0
    else if e ≠ 0 then s.finishRun run toks e 0
    else
      let s := s.writeOut i run toks 0
      s.modRun run.p i fun r => { r with
        count := r.count + toks.length, prefill := false, flying := false, doneSteps := 0, rows := [], sel := [], gstates := [], gends := []
        nextAt := s.clap.num + 1 }
  else
    let d := s.desc i
    let poss := run.rows.map fun (x : Nat × Nat) => x.1
    let k := run.rows.length - 1
    let draft := run.req.flags.testBit 0
    let drafts := (run.rows.drop 1).map fun (x : Nat × Nat) => x.2
    let a := if draft then acceptedDrafts drafts run.sel else 0
    let (toks, e, g) := emitted d run.req.arg0 d.cap run.count d.pos d.gramState run.sel run.gstates run.gends (a + 1)
    let m := toks.length
    let s := if draft then (s.countFor run.p pgCutter 0x50 0x178 k).countFor run.p pgCutter 0x54 0x17C a else s
    let s := s.markEntries run.p d 0 ((poss.take m).drop 1)
    let s := s.markEntries run.p d 1 (poss.drop m)
    let s := s.setDesc i fun d => { d with
      pos := d.pos + m, step := (d.step + 1) % 2 ^ 44, gen := d.gen + m, hasLast := d.hasLast || decide (0 < m)
      lastToken := toks.getLastD d.lastToken, gramState := g
      runCount := run.count + m, runLeft := run.req.arg0 - (run.count + m) }
    let s := (s.blockCkpt run.p i).profile run.p fun f => { f with tokens := f.tokens + toks.length }
    let run := { run with drafts := a }
    if e ≠ 0 then s.finishRun run toks e 0
    else if draft then s.finishRun run toks endStep 0
    else
      let s := s.writeOut i run toks 0
      s.modRun run.p i fun r => { r with
        count := r.count + m, flying := false, doneSteps := 0, rows := [], sel := [], gstates := [], gends := []
        nextAt := s.clap.num + 1 }

/-- Every step that completed before the slate, in context order; a cancelled run waits for its step in flight. -/
def State.recordSteps (s : State) : State :=
  (s.script.runs.filter fun r => r.flying && (decide (0 < r.doneSteps) || r.failed || r.lostState)).foldl State.recordStep s

/-! ### Dispatching a step (R146, R151–R153) -/

/-- Dispatch `n` chunks of a step, chained by predecessors. -/
def State.addChunks (s : State) (r : Reel) (run : Run) (l : List (SheetItem × Nat)) (step : Nat) (after : List Nat) (n : Nat) : State :=
  match n with
  | 0 => s
  | n + 1 =>
    let base := s.sched.nextId
    let s := s.addItems r { cls := 2, ctx := run.idx, step := step % 2 ^ 44, slot := run.slot } after l
    s.addChunks r run l (step + 1) ((List.range l.length).map (· + base)) n

/-- A step that fails before its items run. -/
def State.failStep (s : State) (run : Run) (rows : List (Nat × Nat)) : State :=
  s.modRun run.p run.idx fun r => { r with rows := rows, flying := true, failed := true }

/-- Input tokens of a run, read as the step is dispatched (R146). -/
def State.readInput (s : State) (run : Run) : Option (List Nat) × State :=
  if run.req.len0 = 0 then (some [], s)
  else match s.load { p := run.p, unit := scriptUnit } run.req.addr0 run.req.len0 with
    | (.error _, s) => (none, s)
    | (.ok b, s) => (some ((List.range (run.req.len0 / 4)).map fun k => leAt b (4 * k) 4), s)

/-- Rows at positions POS, POS + 1, …. -/
def rowsFrom (pos : Nat) (toks : List Nat) : List (Nat × Nat) := (List.range toks.length).map fun k => (pos + k, toks.getD k 0)

/-- Dispatch the next step of a run, when its units are there. -/
def State.dispatchHot (s : State) (run : Run) : State :=
  let i := run.idx
  let d := s.desc i
  match s.findReel run.p run.reel with
  | none => s
  | some r =>
    match s.placeSheet r (if run.prefill then .prefill else .decode) with
    | none => s
    | some l =>
      let ps := reelPairs r.image
      if run.prefill then
        match s.readInput run with
        | (none, s) => s.failStep run []
        | (some toks, s) =>
          let rows := rowsFrom d.pos ((if d.hasLast then [d.lastToken] else []) ++ toks)
          let s := s.openBlocks run.p i d ps (rows.map fun (x : Nat × Nat) => x.1)
          let s := s.modRun run.p i fun q => { q with rows := rows, flying := true }
          s.addChunks r run l d.step [] (ceilDiv rows.length 256)
      else
        let left := run.req.arg0 - run.count
        if left = 0 then s.finishRun run [] endMax 0
        else if !d.hasLast then s.finishRun run [] endNoTok 0
        else if d.cap ≤ d.pos then s.finishRun run [] endCap 0
        else
          let draft := run.req.flags.testBit 0
          match if draft then s.readInput run else (some [], s) with
          | (none, s) => s.failStep run []
          | (some toks, s) =>
            let k := min toks.length (min (left - 1) (d.cap - d.pos - 1))
            let rows := rowsFrom d.pos (d.lastToken :: toks.take k)
            let s := s.openBlocks run.p i d ps (rows.map fun (x : Nat × Nat) => x.1)
            let s := s.modRun run.p i fun q => { q with rows := rows, flying := true }
            s.addChunks r run l d.step [] 1

/-- Dispatch the next step of a run.  A descriptor that is not hot is fetched now, and the step follows at the next slate
(R49, R143). -/
def State.dispatchRun (s : State) (run : Run) : State :=
  if s.script.hot.contains run.idx then (s.touchHot run.idx).dispatchHot run
  else ((s.touchHot run.idx).count pgScript 0x50 1).modRun run.p run.idx fun r => { r with nextAt := s.clap.num + 1 }

/-- At the slate, after the sweep: the next step of every run that waits for one. -/
def State.dispatchRuns (s : State) : State :=
  if s.scriptDown || s.script.stalled then s
  else (s.script.runs.filter fun r => !r.flying && r.cancel.isNone && decide (r.nextAt ≤ s.clap.num)).foldl (fun s run =>
    if s.mayDispatch run.p 2 && !(s.part run.p).prstReq then s.dispatchRun run else s) s

/-! ### Copies (R157, R159) -/

def State.dropCopy (s : State) (p i : Nat) : State :=
  { s with script := { s.script with copies := s.script.copies.filter fun c => !(c.p = p && c.idx = i) } }

/-- A copy that has ended completes at the slate. -/
def State.finishCopy (s : State) (c : Copy) : State :=
  if c.resume && c.parity then
    -- the committed state is lost (R156)
    ((s.dropCopy c.p c.idx).retireCtx c.p c.idx 4).completeCtx c.p 0x5A c.slot c.req
  else if c.cancelled then
    -- RETIRE was taken while the copy ran (R150)
    ((s.dropCopy c.p c.idx).retireCtx c.p c.idx 2).completeCtx c.p 0x58 c.slot c.req
  else
    let s := s.dropCopy c.p c.idx
    if c.resume then
      let s := s.parkFree c.p c.idx
      let s := s.setDesc c.idx fun d => { d with state := 3, run := false, parkFirst := 0, parkGran := 0 }
      (s.wantCkpt c.p c.idx 3).completeCtx c.p 0 c.slot c.req
    else
      let ttl := if c.req.arg0 = 0 then (s.desc c.idx).ttl else c.req.arg0
      let s := s.setDesc c.idx fun d => { d with state := 4, run := false, deadline := s.clap.sec + ttl }
      (s.wantCkpt c.p c.idx 2).completeCtx c.p 0 c.slot c.req

def State.finishCopies (s : State) : State := (s.script.copies.filter fun c => c.ended).foldl State.finishCopy s

end Sys2Proof.Machine
end

