-- ==== Sys2Proof/Machine/Sweep.lean ====
section
/-! DEFINITION. The sweep: which request is taken, its checks in order, and what an accepted one starts
(R39–R47, R54, R140–R159). -/
namespace Sys2Proof.Machine

/-! ### Reasons (R39, R147) -/

def rsBadOpcode : Nat := 1
def rsBadRecord : Nat := 2
def rsBadAddress : Nat := 3
def rsReelUnknown : Nat := 0x21
def rsInUse : Nat := 0x22
def rsReadFault : Nat := 0x23

/-- The first nonzero reason of a list of failed checks. -/
def firstReason (l : List (Bool × Nat)) : Nat :=
  match l with
  | [] => 0
  | (true, n) :: _ => n
  | (false, _) :: r => firstReason r

/-! ### Opcodes (R43) -/

def opcodes : List (Nat × List Nat) :=
  [(0x01, [1, 2, 3]), (0x02, [1, 2, 3]), (0x10, [2]), (0x11, [2]), (0x12, [2, 3]), (0x13, [2]), (0x14, [2]), (0x20, [3]), (0x3E, [2, 3])]

def knownOp (op : Nat) : Bool := opcodes.any fun (x : Nat × List Nat) => x.1 = op
def classOk (op cls : Nat) : Bool := opcodes.any fun (x : Nat × List Nat) => x.1 = op && x.2.contains cls

/-- A request that needs the script core (R54). -/
def needsScript (r : Req) : Bool :=
  r.opcode = 0x10 || r.opcode = 0x11 || r.opcode = 0x13 || r.opcode = 0x14 || (r.opcode = 0x12 && r.cls = 2)

/-- Fields that R145 does not name are 0. -/
def unusedZero (r : Req) : Bool :=
  let z (l : List Nat) : Bool := l.all fun n => n = 0
  match r.opcode with
  | 0x10 => z [r.flags, r.arg1, r.arg2, r.arg3] && r.len0 = 64 && r.addr1 % 64 = 0
  | 0x11 => decide (r.flags < 4) && z [r.arg2, r.arg3] && r.len0 % 4 = 0 && decide (r.len0 ≤ 1048576)
  | 0x12 => z [r.addr0, r.len0, r.addr1, r.len1, r.arg2, r.arg3]
      && (if r.cls = 2 then decide (r.flags < 2) && z [r.arg0, r.arg1] else r.flags = 0)
  | 0x13 => z [r.flags, r.addr0, r.len0, r.addr1, r.len1, r.arg1, r.arg2, r.arg3]
  | 0x14 => z [r.flags, r.addr0, r.len0, r.arg0, r.arg1, r.arg2, r.arg3] && r.addr1 % 64 = 0
  | _ => true

/-- The reel that a CTX_STEP or BATCH_RUN dispatches. -/
def State.dispatched (s : State) (p : Nat) (r : Req) : Option Reel :=
  if r.opcode = 0x11 then s.findReel p (if r.arg1 = 0xFFFFFFFF then (s.desc r.handle).reel else r.arg1)
  else if r.opcode = 0x20 then s.findReel p r.handle
  else none

/-- Resolved ranges of a Splicer descriptor overlap (R188). -/
def State.copyOverlap (s : State) (p : Nat) (r : Req) : Bool :=
  match s.dispatched p r with
  | some x => x.cls = r.cls && copiesMeet x.image r.addr0 r.addr1
  | none => false

/-- The reel's streams, copies and detections stay inside the request's areas (R105, R188, R433). -/
def State.reelAreas (s : State) (p : Nat) (r : Req) : Bool :=
  match s.dispatched p r with
  | some x => x.cls ≠ r.cls || areasHold x.image x.cls r.len0 r.len1
  | none => true

/-- Areas that a request names lie in the partition's space. -/
def State.areasOk (s : State) (p : Nat) (r : Req) : Bool :=
  match r.opcode with
  | 0x01 => s.inSpace p r.addr0 (r.len0 * 4096) && (r.addr1 = 0 || s.inSpace p r.addr1 32)
  | 0x10 => s.inSpace p r.addr0 r.len0 && s.inSpace p r.addr1 (r.len1 * 4096)
  | 0x11 => s.inSpace p r.addr0 r.len0 && s.inSpace p r.addr1 r.len1
  | 0x14 => s.inSpace p r.addr1 (r.len1 * 4096)
  | 0x20 => s.inSpace p r.addr0 r.len0 && s.inSpace p r.addr1 r.len1
  | _ => true

/-! ### Reels -/

/-- A 64-bit tick in ARG1 and ARG2. -/
def Req.tick (r : Req) : Nat := r.arg1 + r.arg2 * 2 ^ 32

/-- Contexts or requests still use the reel (R39 REEL_IN_USE, R163). -/
def State.reelInUse (s : State) (x : Reel) : Bool :=
  let live (d : Desc) : Bool := decide (1 ≤ d.state) && decide (d.state ≤ 4)
  let uses (e : Nat × Desc) : Bool :=
    s.ctxOwner e.1 = some x.p && live e.2 && (if x.grammar then e.2.grammar = x.handle else e.2.reel = x.handle)
  if x.cls = 3 then s.sched.batches.any fun b => b.p = x.p && b.req.handle = x.handle
  else s.script.ctxs.any uses || s.script.runs.any fun r => r.p = x.p && r.reel = x.handle

/-- From slate U on the reel takes no new dispatch (R41). -/
def Reel.ending (x : Reel) (n : Nat) : Bool := x.stopped || (match x.unloadAt with | some u => decide (u ≤ n) | none => false)

/-- A REEL_UNLOAD or BATCH_RUN whose CLASS differs from that of the reel it names (R39, R43). -/
def State.wrongClass (s : State) (p : Nat) (r : Req) : Bool :=
  (r.opcode = 0x02 || r.opcode = 0x20) && (match s.findReel p r.handle with | some x => x.cls ≠ r.cls | none => false)

/-- Checks of a REEL_UNLOAD or BATCH_RUN's HANDLE (R39, R41).  The partition holds a handle until the COMPLETED record of its
unload, at U for a class B or C reel, so a further unload of a reel that is ending is accepted (DEDUCED, log entry 88). -/
def State.reelCheck (s : State) (p : Nat) (r : Req) : Nat :=
  match s.findReel p r.handle with
  | none => rsReelUnknown
  | some x =>
    if x.cls ≠ 1 && x.ending s.clap.num then rsReelUnknown
    else if r.opcode = 0x02 && x.cls ≠ 1 && decide (r.tick ≤ s.clap.num) && s.reelInUse x then rsInUse
    else 0

def State.actLoad (s : State) (p slot : Nat) (r : Req) : State :=
  let l : Load := { p := p, slot := slot, req := r, at' := s.clap.num }
  { s with sched := { s.sched with loads := s.sched.loads ++ [l] } }

/-- The accepted unloads of a reel complete with a reason (R41). -/
def State.completeUnloads (s : State) (p reason : Nat) (l : List (Nat × Req)) : State :=
  l.foldl (fun s (x : Nat × Req) => s.complete p reason x.1 x.2) s

/-- An accepted unload: at U the reel stops, the earliest U of several (R41; log entry 88). -/
def State.actUnload (s : State) (p slot : Nat) (r : Req) : State :=
  match s.findReel p r.handle with
  | none => s
  | some x =>
    let u := max s.clap.num r.tick
    if x.cls ≠ 1 && u = s.clap.num then (s.dropReel x).completeUnloads p 0 (x.unloadReqs ++ [(slot, r)])
    else s.modReel p r.handle fun x => { x with
      unloadAt := some (match x.unloadAt with | some v => min u v | none => u), unloadReqs := x.unloadReqs ++ [(slot, r)],
      cueFlush := x.cueFlush || r.flags.testBit 0 }

def State.actBatch (s : State) (p slot : Nat) (r : Req) : State :=
  let b : Batch := { p := p, slot := slot, req := r }
  { s with sched := { s.sched with batches := s.sched.batches ++ [b] } }

/-! ### BATCH_RUN at the slate (R43, R155, R199) -/

def State.dropBatch (s : State) (b : Batch) : State :=
  { s with sched := { s.sched with batches := s.sched.batches.filter fun x => !(x.p = b.p && x.slot = b.slot) } }

/-- A batch whose items have all left the scoreboard, or that has failed, completes; a cancelled one stops at item boundaries. -/
def State.judgeBatch (s : State) (b : Batch) : State :=
  let items := s.batchItems b.p b.slot
  let started := !items.isEmpty
  let busy := items.any fun i => i.st = .running || i.st = .halted
  let open' := items.any Item.open'
  let done (reason : Nat) (s : State) : State :=
    let s := (items.filter Item.open').foldl State.abandon s
    let s := s.dropBatch b
    let s := (s.unreserve b.p).writeResult b.p { reqRec 3 reason b.slot b.req with flags := 4 * b2n b.rehearsal }
    match b.cancel with
    | some (seq, slot, tag) =>
      let r : Req := { seq := seq, cls := 3, tag := tag, handle := b.req.handle }
      s.complete b.p (if reason = 0x58 || reason = 0x59 then 0 else 0x5B) slot r
    | none => s
  if b.failed then done 0x59 s
  else if b.cancel.isSome then (if busy then s else done 0x58 s)
  else if started && !open' then done 0 s
  else s

def State.judgeBatches (s : State) : State := s.sched.batches.foldl State.judgeBatch s

/-- Dispatch a batch that has no items yet (R48, R49). -/
def State.dispatchBatches (s : State) : State :=
  s.sched.batches.foldl (fun s b =>
    if !(s.batchItems b.p b.slot).isEmpty || b.cancel.isSome || b.failed || !s.mayDispatch b.p 3 then s
    else match s.findReel b.p b.req.handle with
      | none => s
      | some r =>
        match s.placeSheet r with
        | none => s
        | some l => s.addItems r { cls := 3, slot := b.slot, step := b.slot } [] l) s

/-! ### Contexts: fetch (R140, R142, R146) -/

/-- Index checks of a context request. -/
def State.ctxFetch (s : State) (p : Nat) (r : Req) : Nat × State :=
  let i := r.handle
  if !(decide (s.ctxFirst p ≤ i) && decide (i < s.ctxFirst p + s.ctxCount p)) then (0x40, s)
  else onOk (s.fetchDesc p i) (fun s => (0x41, s.retireCorrupt p i)) fun s => (0, s)

/-- A request other than CTX_CANCEL is outstanding (R146). -/
def State.ctxBusy (s : State) (p i : Nat) : Bool :=
  (s.runOf p i).isSome || s.script.copies.any fun c => c.p = p && c.idx = i

/-- A class B reel of the partition with ATTEND and LOGITS items (R147). -/
def State.stepReel (s : State) (p h : Nat) : Option Reel :=
  match s.findReel p h with
  | some x =>
    if x.cls = 2 && !x.ending s.clap.num && !(reelPairs x.image).isEmpty && !(reelLogits x.image).isEmpty then some x else none
  | none => none

/-! ### CTX_ADMIT (R144, R147, R148) -/

/-- The grammar's VOCAB differs from the N of a LOGITS item of the reel (R147). -/
def State.vocabDiffers (s : State) (p g : Nat) (x : Reel) : Bool :=
  g ≠ 0xFFFF && (match s.gramOf p g with
    | some gb => (reelLogits x.image).any fun e => leAt x.image (e.desc + 8) 4 ≠ gramVocab gb
    | none => false)

/-- Parameter block in range. -/
def paramsOk (b : Bytes) : Bool :=
  let f (o n : Nat) : Nat := leAt b o n
  let t := f 0 4
  let tp := f 4 4
  let cf := f 0x34 1
  (fIsZero t || (decide (t < 0x7F800000))) && decide (0 < tp) && decide (tp ≤ 0x3F800000) && decide (f 8 2 ≤ 256) && f 12 4 = 0
  && f 0x18 8 % 64 = 0 && decide (1 ≤ f 0x30 4) && decide (f 0x30 4 ≤ 2592000) && storable (cf % 16) && storable (cf / 16)
  && decide (f 0x35 1 < 2) && (b.drop 0x36).all fun x => x = 0

def State.checkAdmit (s : State) (p : Nat) (r : Req) : Nat × State :=
  match s.ctxFetch p r with
  | (0, s) =>
    let d := s.desc r.handle
    if s.ctxBusy p r.handle then (0x42, s)
    else if !(d.state = 0 || d.state = 5) then (0x43, s)
    else match s.load { p := p, unit := scriptUnit } r.addr0 64 with
      | (.error _, s) => (rsReadFault, s)
      | (.ok b, s) =>
        let cf := leAt b 0x34 1
        let g := leAt b 10 2
        if !paramsOk b then (0x44, s)
        else match s.stepReel p r.arg0 with
          | none => (0x45, s)
          | some x =>
            let ps := reelPairs x.image
            (firstReason [(g ≠ 0xFFFF && (s.gramOf p g).isNone, 0x47),
              (s.vocabDiffers p g x, 0x48),
              (decide (capOf (r.len1 * 4096) ps.length (slotBytes ps cf) < 64), 0x49)], s)
  | x => x

def State.actAdmit (s : State) (p slot : Nat) (r : Req) : State :=
  let i := r.handle
  let b := s.rawMain (s.msBase p + r.addr0) 64
  match s.findReel p r.arg0 with
  | none => s
  | some x =>
    let ps := reelPairs x.image
    let cf := leAt b 0x34 1
    let g := leAt b 10 2
    let start := match s.gramOf p g with | some gb => gramStart gb | none => 0
    let held := (s.desc i).state ≠ 0
    let s := s.parkFree p i
    let s := s.setDesc i fun d =>
      { state := 1, ver := d.ver, reel := r.arg0, grammar := g, gramState := start, lg := ps.length,
        slotBytes := slotBytes ps cf, cacheAddr := r.addr1, cacheLen := r.len1 * 4096, params := b, geom := geomOf ps cf }
    let s := if held then s.wantCkpt p i 3 else s
    (s.touchHot i).completeCtx p 0 slot r

/-! ### CTX_STEP (R121, R147, R151–R153) -/

def State.checkStep (s : State) (p : Nat) (r : Req) : Nat × State :=
  match s.ctxFetch p r with
  | (0, s) =>
    let d := s.desc r.handle
    let draft := r.flags.testBit 0
    let nt := r.len0 / 4
    let rows := if draft then 0 else if nt = 0 then 0 else nt + b2n d.hasLast
    if s.ctxBusy p r.handle then (0x42, s)
    else if !(d.state = 3 || (d.state = 1 && decide (0 < nt) && !draft)) then (0x43, s)
    else match s.stepReel p (if r.arg1 = 0xFFFFFFFF then d.reel else r.arg1) with
      | none => (0x45, s)
      | some x =>
        let ps := reelPairs x.image
        (firstReason [
          (!(ps.length = d.lg && slotBytes ps d.cfmt = d.slotBytes && geomOf ps d.cfmt = d.geom), 0x46),
          ((reelAttends x.image).any (fun a => !(contained (d.cfmt % 16) a.wfmt && contained (d.cfmt / 16) a.wfmt)), 0x50),
          (s.vocabDiffers p d.grammar x, 0x48),
          (decide (0 < rows) && decide (d.cap < d.pos + rows), 0x49),
          (decide (r.len1 < 64 + 4 * r.arg0), 0x4A),
          (draft && (nt = 0 || decide (8 < nt) || !d.hasLast || r.arg0 = 0), 0x4B)], s)
  | x => x

def State.actStep (s : State) (p slot : Nat) (r : Req) : State :=
  let i := r.handle
  let d := s.desc i
  let h := if r.arg1 = 0xFFFFFFFF then d.reel else r.arg1
  let prefill : Bool := !r.flags.testBit 0 && decide (4 ≤ r.len0)
  let start := match s.gramOf p d.grammar with | some gb => gramStart gb | none => d.gramState
  let run : Run := { p := p, idx := i, slot := slot, req := r, reel := h, prefill := prefill, nextAt := s.clap.num }
  let s := s.setDesc i fun d => { d with
    state := if prefill then 2 else 3, run := true, gramState := if r.flags.testBit 1 then start else d.gramState
    runSeq := r.seq, runSlot := slot, runOp := r.opcode, runOut := r.addr1, runLeft := r.arg0, runCount := 0, runReel := h }
  { s with script := { s.script with runs := s.script.runs ++ [run] } }

/-! ### CTX_CANCEL (R150, R155) -/

def State.checkCancelB (s : State) (p : Nat) (r : Req) : Nat × State :=
  match s.ctxFetch p r with
  | (0, s) => (if (s.desc r.handle).state = 0 then 0x43 else 0, s)
  | x => x

/-- A cancel that finds nothing to cancel; RETIRE retires an idle context. -/
def State.cancelIdle (s : State) (p slot : Nat) (r : Req) (idle : Bool) : State :=
  let s := s.completeCtx p 0x5B slot r
  if idle && r.flags.testBit 0 && (s.desc r.handle).state ≠ 5 then s.retireCtx p r.handle 2 else s

/-- No step behind the one in flight is dispatched: the items of later prefill chunks go (R155). -/
def State.dropLaterSteps (s : State) (p i : Nat) : State :=
  let l := (s.ctxItems p i).filter Item.open'
  let age (x : Item) : Nat := (x.step + 2 ^ 44 - (s.desc i).step) % 2 ^ 44
  let first := l.foldl (fun m x => min m (age x)) (2 ^ 44)
  (l.filter fun x => decide (first < age x)).foldl State.abandon s

def State.actCancelB (s : State) (p slot : Nat) (r : Req) : State :=
  let i := r.handle
  let retire := r.flags.testBit 0
  match s.runOf p i with
  | some run =>
    if run.cancel.isSome then s.cancelIdle p slot r false
    else
      let run := { run with cancel := some (r.seq, slot, r.tag, retire) }
      let s := s.modRun p i fun q => { q with cancel := some (r.seq, slot, r.tag, retire) }
      if run.flying then s.dropLaterSteps p i else s.finishRun run [] endCancel 0x58
  | none =>
    match s.script.copies.find? fun c => c.p = p && c.idx = i with
    | some c =>
      if !retire || c.cancelled then s.cancelIdle p slot r false
      else
        -- no run is outstanding: the cancel completes at this slate, the copy at its end (R146, R150)
        let s := { s with script := { s.script with copies := s.script.copies.map fun (c : Copy) =>
              if c.p = p && c.idx = i then { c with cancelled := true } else c } }
        s.completeCtx p 0 slot r
    | none => s.cancelIdle p slot r true

/-- A class C CTX_CANCEL names the BATCH_RUN by slot and SEQ; the batch ends at this slate unless an item of it is running
(R155). -/
def State.actCancelC (s : State) (p slot : Nat) (r : Req) : State :=
  let hit (b : Batch) : Bool := b.p = p && b.slot = r.arg0 && b.req.seq = r.arg1 && b.req.handle = r.handle && b.cancel.isNone
  let mark (b : Batch) : Batch := if hit b then { b with cancel := some (r.seq, slot, r.tag) } else b
  if s.sched.batches.any hit then
    let s := { s with sched := { s.sched with batches := s.sched.batches.map mark } }
    (s.sched.batches.filter fun b => b.p = p && b.slot = r.arg0 && b.cancel.isSome).foldl State.judgeBatch s
  else s.complete p 0x5B slot r

/-! ### CTX_PARK and CTX_RESUME (R157–R159) -/

/-- Bytes of a park image. -/
def Desc.imageLen (d : Desc) : Nat := 4096 + ceilDiv d.pos 64 * d.lg * d.slotBytes

/-- Does the quota hold the image beside those parked, in some gap of the range (R147, R157)? -/
def State.parkFits (s : State) (p n : Nat) : Bool :=
  decide (sumNat ((s.parkUsed p).map fun (g : Nat × Nat) => g.2) + n ≤ s.rdn (pgPart p) 0x50) && (rangeGaps (s.parkUsed p) 0 (s.pkSize p / parkGran)).any fun (g : Nat × Nat) => decide (n ≤ g.2)

def State.checkPark (s : State) (p : Nat) (r : Req) : Nat × State :=
  match s.ctxFetch p r with
  | (0, s) =>
    let d := s.desc r.handle
    (firstReason [(s.ctxBusy p r.handle, 0x42), (d.state ≠ 3, 0x43), (decide (2592000 < r.arg0), 0x44),
      (!s.parkFits p (ceilDiv d.imageLen parkGran), 0x4C)], s)
  | x => x

def State.addCopy (s : State) (c : Copy) : State :=
  let s := { s with script := { s.script with copies := s.script.copies ++ [c] } }
  (s.touchHot c.idx).setDesc c.idx fun d => { d with run := true, runSeq := c.req.seq, runSlot := c.slot, runOp := c.req.opcode }

def State.actPark (s : State) (p slot : Nat) (r : Req) : State :=
  let i := r.handle
  let n := ceilDiv (s.desc i).imageLen parkGran
  match s.parkAlloc p n i with
  | none => s
  | some (first, s) =>
    (s.addCopy { p := p, idx := i, slot := slot, req := r, resume := false }).modDesc i fun d => { d with parkFirst := first, parkGran := n }

def State.checkResume (s : State) (p : Nat) (r : Req) : Nat × State :=
  match s.ctxFetch p r with
  | (0, s) =>
    let d := s.desc r.handle
    let n := firstReason [(s.ctxBusy p r.handle, 0x42), (d.state ≠ 4, 0x43),
      (decide (capOf (r.len1 * 4096) d.lg d.slotBytes < d.pos + 1), 0x49), (decide (d.deadline ≤ s.clap.sec), 0x4D)]
    (n, if n = 0x4D then (s.retireCtx p r.handle 3).count pgScript 0x58 1 else s)
  | x => x

def State.actResume (s : State) (p slot : Nat) (r : Req) : State :=
  (s.addCopy { p := p, idx := r.handle, slot := slot, req := r, resume := true }).modDesc r.handle fun d => { d with deadline := 0 }

/-! ### Admission (R44, R146) -/

/-- Checks of a request: the reason, 0 to accept. -/
def State.reqCheck (s : State) (p : Nat) (r : Req) : Nat × State :=
  if !knownOp r.opcode then (rsBadOpcode, s)
  else if !classOk r.opcode r.cls || r.rsvd ≠ 0 || !unusedZero r || s.wrongClass p r || s.copyOverlap p r then (rsBadRecord, s)
  else if !s.areasOk p r || !s.reelAreas p r then (rsBadAddress, s)
  else match r.opcode with
    | 0x02 => (s.reelCheck p r, s)
    | 0x20 => (s.reelCheck p r, s)
    | 0x10 => s.checkAdmit p r
    | 0x11 => s.checkStep p r
    | 0x12 => if r.cls = 2 then s.checkCancelB p r else (0, s)
    | 0x13 => s.checkPark p r
    | 0x14 => s.checkResume p r
    | _ => (0, s)

/-- What an accepted request starts. -/
def State.reqAct (s : State) (p slot : Nat) (r : Req) : State :=
  match r.opcode with
  | 0x01 => s.actLoad p slot r
  | 0x02 => s.actUnload p slot r
  | 0x10 => s.actAdmit p slot r
  | 0x11 => s.actStep p slot r
  | 0x12 => if r.cls = 2 then s.actCancelB p slot r else s.actCancelC p slot r
  | 0x13 => s.actPark p slot r
  | 0x14 => s.actResume p slot r
  | 0x20 => s.actBatch p slot r
  | _ => s.complete p 0 slot r

/-- How the sweep leaves a slot. -/
inductive Took where
  | untaken | full | board | taken
  deriving DecidableEq, Repr

/-- The last SEQ taken from a slot (R44). -/
def State.shadowOf (s : State) (p slot : Nat) : Nat := mget (fun _ => 0) s.sched.shadow (p * 4096 + slot)

/-- The sweep reaches a slot of an enabled partition (R44, R47, R49, R54). -/
def State.takeSlot (s : State) (p slot : Nat) (r : Req) : Took × State :=
  if r.seq = s.shadowOf p slot then (.untaken, s)
  else if s.scriptDown && needsScript r then (.untaken, s)
  else if s.boardFull && (r.cls = 2 || r.cls = 3) then (.board, s.raise pgSched 12)
  else if s.room p < 2 then
    (.full, ({ s with sched := { s.sched with deferred := mmod (fun _ => 0) s.sched.deferred p (· + 1) } } : State).raise pgSched 11)
  else
    let s := { s with sched := { s.sched with shadow := mset (fun _ => 0) s.sched.shadow (p * 4096 + slot) r.seq, swept := s.sched.swept + 1 } }
    match s.reqCheck p r with
    | (0, s) => (.taken, (((s.writeResult p (reqRec 1 0 slot r)).reserve p).reqAct p slot r))
    | (reason, s) => (.taken, s.writeResult p (reqRec 2 reason slot r))

/-- A partition that is swept: enabled, not under scrub, no reset pending (R44). -/
def State.sweptPart (s : State) (p : Nat) : Bool :=
  (s.part p).enabled && !(s.part p).scrubbing && !(s.part p).prstReq

/-- A request slot's 64 bytes (R42). -/
def parseReq (b : Bytes) : Req :=
  { seq := leAt b 0 4, opcode := leAt b 4 1, cls := leAt b 5 1, flags := leAt b 6 2, tag := leAt b 8 8, handle := leAt b 0x10 4
    len0 := leAt b 0x14 4, addr0 := leAt b 0x18 8, addr1 := leAt b 0x20 8, len1 := leAt b 0x28 4, arg0 := leAt b 0x2C 4
    arg1 := leAt b 0x30 4, arg2 := leAt b 0x34 4, arg3 := leAt b 0x38 4, rsvd := leAt b 0x3C 4 }

/-- Is the sweep of the last slate under way?  It runs in the guard, with SWEEP_EN set, until a failed read cuts it short
(R33, R44, R45). -/
def State.sweeping (s : State) : Bool :=
  s.slatesOn && s.clap.ever && bit (s.rd pgSched 0x40) 0 && !s.sched.sweepCut && decide (s.now < s.clap.last + guardT)

/-- A failed read cuts the sweep short (R45). -/
def State.cutSweep (s : State) : State :=
  (({ s with sched := { s.sched with sweepCut := true } } : State).count pgSched 0x5C 1).raise pgSched 8

/-- The sweep reads a slot of a partition's table; a read that fails cuts it short (R44, R45). -/
def State.sweepRead (s : State) (p slot : Nat) : Option Req × State :=
  onExc (s.load { p := p } (s.rd64 (pgPart p) 0x5C + 64 * slot) 64)
    (fun _ s => (none, s.cutSweep))
    fun b s => (some (parseReq b), s)

/-- Before the slots of a partition the sweep reads CONSUMED in the header of its result ring, through the snoop filter
as every read (R44, R232). -/
def State.sweepRoom (s : State) (p : Nat) : State :=
  onExc (s.load { p := p } (s.rd64 (pgPart p) 0x68) 16) (fun _ s => s.cutSweep) fun _ s => s

/-- Row of a request: during the guard the sweep comes to the slot, finds the record that the row names in the partition's table
and takes it (R19, R20, R44, R45).  Outside the guard the record waits for the next slate's sweep (log entry 12). -/
def State.takeRow (s : State) (p slot : Nat) (r : Req) (ofRow : Bool) : State :=
  if !ofRow || !s.sweeping || !s.sweptPart p || s.resSlots p = 0 || decide (s.rdn (pgPart p) 0x64 ≤ slot) then s
  else match s.sweepRead p slot with
    | (none, s) => s
    | (some x, s) => if x = r then (s.takeSlot p slot r).2 else s

/-! ### The rows -/

def execReelLoad (p : Fin 16) (slot : Nat) (r : Req) (s : State) : Out := .next (s.begin.takeRow p slot r (r.opcode = 0x01))

def execReelUnload (p : Fin 16) (slot : Nat) (r : Req) (s : State) : Out := .next (s.begin.takeRow p slot r (r.opcode = 0x02))

def execBatchRun (p : Fin 16) (slot : Nat) (r : Req) (s : State) : Out :=
  .next (s.begin.takeRow p slot r (r.opcode = 0x20)).dispatchBatches

def execNop (p : Fin 16) (slot : Nat) (r : Req) (s : State) : Out := .next (s.begin.takeRow p slot r (r.opcode = 0x3E))

def execBadOpcode (p : Fin 16) (slot : Nat) (r : Req) (s : State) : Out := .next (s.begin.takeRow p slot r (!knownOp r.opcode))

def execCtxAdmit (p : Fin 16) (slot : Nat) (r : Req) (s : State) : Out := .next (s.begin.takeRow p slot r (r.opcode = 0x10))

def execCtxStep (p : Fin 16) (slot : Nat) (r : Req) (s : State) : Out :=
  .next (s.begin.takeRow p slot r (r.opcode = 0x11)).dispatchRuns

def execCtxCancel (p : Fin 16) (slot : Nat) (r : Req) (s : State) : Out := .next (s.begin.takeRow p slot r (r.opcode = 0x12))

def execCtxPark (p : Fin 16) (slot : Nat) (r : Req) (s : State) : Out := .next (s.begin.takeRow p slot r (r.opcode = 0x13))

def execCtxResume (p : Fin 16) (slot : Nat) (r : Req) (s : State) : Out := .next (s.begin.takeRow p slot r (r.opcode = 0x14))

/-! ### Copies end, contexts expire, the firmware restarts -/

/-- Mark the copy of a context as ended. -/
def State.endCopy (s : State) (p i : Nat) (parity : Bool) : State :=
  { s with script := { s.script with copies := s.script.copies.map fun c =>
      if c.p = p && c.idx = i then { c with ended := true, parity := parity } else c } }

/-- Granules g, g + 1, … of the copy path's source whose plaintext is not delivered clean. -/
def State.badGrans (s : State) (q : Requester) (g n : Nat) : List Nat × State :=
  match n with
  | 0 => ([], s)
  | n + 1 =>
    match s.readGran q g with
    | (e, s) =>
      let r := s.badGrans q (g + 1) n
      (if e.isSome then g :: r.1 else r.1, r.2)

/-- The park copy path writes a context's image into the park tier (R157).  A granule that arrives with bad parity is stored
poisoned, and the loss shows when the context resumes (R156, R176). -/
def State.writeImage (s : State) (c : Copy) : Option StoreErr × State :=
  let d := s.desc c.idx
  let n := ceilDiv d.pos 64 * d.lg * d.slotBytes
  let src := s.msBase c.p + d.cacheAddr
  let ppa := s.granPpa c.p d.parkFirst
  match s.badGrans { p := c.p, unit := scriptUnit } (src / 64) (granCount src n) with
  | (bad, s) =>
    let img := imageHead d c.p 0 ++ s.rawMain src n
    let hurt (g : Nat) : Bool := decide (ppa / 64 + 64 ≤ g) && bad.contains (src / 64 + (g - (ppa / 64 + 64)))
    s.storePark c.p scriptUnit ppa img hurt

/-- The park copy; one whose write fails has not ended (R157; log entry 91). -/
def State.runPark (s : State) (c : Copy) (res : CopyResult) : State :=
  onErr (s.writeImage c) (fun _ s => s) fun t =>
    (t.count pgPark 0x60 ((s.desc c.idx).imageLen / 4096)).endCopy c.p c.idx (res = .parity)

/-- The copy that the copy path serves: the first accepted of those that have not ended (R157). -/
def State.copyInHand (s : State) : Option Copy := s.script.copies.find? fun c => !c.ended

def execParkCopyDone (idx : Nat) (res : CopyResult) (s : State) : Out :=
  let s := s.begin
  .next (match s.copyInHand with
    | none => s
    | some c => if c.idx = idx && !c.resume then s.runPark c res else s)

/-- The park copy path reads a context's image back from the park tier (R159). -/
def State.readImage (s : State) (c : Copy) : Except StoreErr Bytes × State :=
  s.loadPark c.p scriptUnit (s.granPpa c.p (s.desc c.idx).parkFirst) (s.desc c.idx).imageLen

/-- The slots of a resumed context go to its new cache area. -/
def State.storeSlots (s : State) (c : Copy) (img : Bytes) : Option StoreErr × State :=
  s.store { p := c.p, unit := scriptUnit } c.req.addr1 (img.drop 4096)

/-- The resume copy: slots go to the new cache area; entries at POS or beyond are cleared (R159, R340). -/
def State.runResume (s : State) (c : Copy) (res : CopyResult) : State :=
  match s.readImage c with
  | (.error e, s) => if e.isParity then s.endCopy c.p c.idx true else s
  | (.ok img, s) =>
    onErr (s.storeSlots c img) (fun _ s => s) fun s =>
    let s := s.setDesc c.idx fun d => { d with cacheAddr := c.req.addr1, cacheLen := c.req.len1 * 4096 }
    let d := s.desc c.idx
    let past := (List.range (roundUp d.pos 64 - d.pos)).map (· + d.pos)
    ((s.markEntries c.p d 1 past).count pgPark 0x60 (img.length / 4096)).endCopy c.p c.idx (res = .parity)

def execResumeCopyDone (idx : Nat) (res : CopyResult) (s : State) : Out :=
  let s := s.begin
  .next (match s.copyInHand with
    | none => s
    | some c => if c.idx = idx && c.resume then s.runResume c res else s)

/-- A PAUSED context, nothing outstanding, at a slate with T(n) ≥ DEADLINE (R158). -/
def State.expired (s : State) (i : Nat) : Bool :=
  let d := s.desc i
  d.state = 4 && decide (d.deadline ≤ s.clap.sec) && !(s.script.copies.any fun c => c.idx = i)

def execContextExpiry (idx : Nat) (s : State) : Out :=
  let s := s.begin
  .next (match s.ctxOwner idx with
    | none => s
    | some p =>
      if s.scriptDown || !(s.part p).enabled then s
      else onOk (s.fetchDesc p idx) (fun s => s.retireCorrupt p idx) fun s =>
        if s.expired idx then (s.retireCtx p idx 3).count pgScript 0x58 1 else s)

/-- Every run that was outstanding when the core was reset ends as FAULTED, its context as before the run's first
unrecorded step (R387). -/
def execFirmwareRestarted (s : State) : Out :=
  let s := s.begin
  .next (if !(s.script.stat = 1 && s.script.resetPending) then s
    else
      let s := { s with script := { s.script with stat := 2, resetPending := false, stalled := false } }
      s.script.runs.foldl (fun s r =>
        let s := ((s.ctxItems r.p r.idx).filter Item.open').foldl State.abandon s
        let s := s.markEntries r.p (s.desc r.idx) 1 (r.rows.map fun (x : Nat × Nat) => x.1)
        s.finishRun r [] endFault 0x59) s)

end Sys2Proof.Machine
end

