-- ==== Sys2Proof/Machine/Prime.lean ====
section
/-! DEFINITION. Prime cells: maps, streams, convolution, pooling, EMIT and zero-run packing (R80–R98, R431, R433, R434). -/
namespace Sys2Proof.Machine

/-! ### Maps (R84) -/

/-- Element of channel `ch` at pixel x of a row, its code and its value under its block scale. -/
def rowCode (code c : Nat) (row : Bytes) (x ch : Nat) : Nat := elemAt code row (x * c + ch)
def rowNum (code w c : Nat) (row : Bytes) (x ch : Nat) : NumVal :=
  let e := rowCode code c row x ch
  if isMx code then decodeScaled code e (leAt row (rowElems code w c + x * ceilDiv c 32 + ch / 32) 1) else decodeElem code e

/-- Row y of a map. -/
def mapRow (code w c : Nat) (m : Bytes) (y : Nat) : Bytes := (m.drop (y * rowBytes code w c)).take (rowBytes code w c)

/-! ### Weights (R434) -/

/-- Weight of reduction index k and column n in tile j. -/
def weightNum (code kpad : Nat) (wb : Bytes) (j k n : Nat) : NumVal :=
  let o := j * tileBytes code kpad
  let e := elemAt code (wb.drop o) (k * 32 + n)
  if isMx code then decodeScaled code e (leAt wb (o + ceilDiv (kpad * 32 * fmtBits code) 8 + k / 32 * 32 + n) 1) else decodeElem code e

/-! ### Tiles and closes (R69, R85, R90) -/

/-- An output before its last rounding: the value or ledger, and what the close reports. -/
structure PreOut where
  v : NumVal
  led : Led
  tile : Nat
  sat : Bool := false
  win : Bool := false
  prod : Bool := false
  zp : Int := 0
  deriving DecidableEq, Repr

/-- The activation functions of ACT 2 to 5 (R75, R84). -/
def actFn (act w : Nat) : Nat :=
  match act with
  | 2 => fGelu w | 3 => fSilu w | 4 => fSigmoid w | _ => fTanh w

/-- A ledger up to its last rounding (R70, R90).  A zero that an activation gives has no sign left when it reaches the output format
(DESIGN CHOICE, log entry 43). -/
def preClose (l : Led) (t : TileEntry) (tile act : Nat) (sat : Bool) (fmt : Nat) : PreOut :=
  if fmt = 0xF then { v := .nan, led := l, tile := tile }
  else if 2 ≤ act then
    let c := l.close { mult := t.mult, shift := t.shift, rnd := 0, sat := sat, zp := 0, fmt := 0xC }
    { v := decodeElem 0xC (actFn act c.code), led := l, tile := tile, sat := c.sat, win := c.win, prod := c.prod, zp := t.zp }
  else
    let (v, w, p) := l.value t.mult t.shift
    let v := match v with | .fin m e => if act = 1 && decide (m < 0) then NumVal.fin 0 e else .fin m e | x => x
    { v := v, led := l, tile := tile, win := w, prod := p, zp := t.zp }

/-- Outputs of a row: bytes in the map layout without padding, and output saturations (R72, R73). -/
def closeRow (fmt rnd : Nat) (sat : Bool) (c : Nat) (l : List PreOut) : Bytes × Nat :=
  let first := countIf (fun p => p.sat) l
  if fmt = 0xF then (l.flatMap fun p => p.led.bytes, 0)
  else if isMx fmt then
    let px := l.length / max 1 c
    let blocks := (List.range px).flatMap fun x => (List.range (ceilDiv c 32)).map fun b =>
      fitMx fmt rnd sat (((l.drop (x * c + 32 * b)).take (min 32 (c - 32 * b))).map fun p => p.v)
    let es := blocks.flatMap fun (b : Nat × List (Nat × Bool)) => b.2
    (packElems fmt (es.map fun e => e.1) ++ blocks.map (fun (b : Nat × List (Nat × Bool)) => BitVec.ofNat 8 b.1),
      first + countIf (fun (e : Nat × Bool) => e.2) es)
  else
    let es := l.map fun p => fitOut fmt rnd sat p.zp p.v
    (packElems fmt (es.map fun e => e.1), first + countIf (fun (e : Nat × Bool) => e.2) es)

/-- Tiles with an overflow, each with its INFO bits [7:6]. -/
def overflows (l : List PreOut) : List (Nat × Nat) :=
  (l.filter fun p => p.win || p.prod).foldl (fun acc p =>
    let b := b2n p.win + 2 * b2n p.prod
    if acc.any fun (x : Nat × Nat) => x.1 = p.tile then
      acc.map fun (x : Nat × Nat) => if x.1 = p.tile then (x.1, x.2 ||| b) else x
    else acc ++ [(p.tile, b)]) []

/-- Report an item's overflowing tiles (R69, R395): event, counter, FAULT record. -/
def State.reportOvf (s : State) (i : Item) (off tot : Nat) (l : List (Nat × Nat)) : State :=
  l.foldl (fun s (x : Nat × Nat) =>
    let id := leBytes 8 i.when ++ leBytes 2 i.handle ++ leBytes 2 i.idx ++ leBytes 3 x.1
      ++ leBytes 1 (i.p + i.cls * 16 + x.2 * 64)
    ((s.countFor i.p i.page off tot 1).raise i.page 8).itemRecord i 0x0100 id i.rehearsal) s

/-! ### Convolution and pooling of one map (R86–R90, R92–R94) -/

/-- A value at an input position: none outside the map (R87). -/
structure MapIn where
  rows : List Bytes
  /-- Global number of the first row, and of the first row that exists. -/
  first : Int
  deriving DecidableEq, Repr

def MapIn.row (m : MapIn) (y : Int) : Option Bytes := if y < m.first then none else m.rows[(y - m.first).toNat]?

/-- Positions of output pixel (oy, ox): the row and column of each window place, none for padding. -/
def window (d : PrimeDesc) (m : MapIn) (oy : Int) (ox : Nat) : List (Option (Bytes × Nat)) :=
  (List.range d.kh).flatMap fun (ky : Nat) => (List.range d.kw).map fun (kx : Nat) =>
    let iy : Int := oy * (d.sy : Int) - (d.padT : Int) + ((ky * d.dy : Nat) : Int)
    let ix : Int := ((ox * d.sx : Nat) : Int) - (d.padL : Int) + ((kx * d.dx : Nat) : Int)
    if ix < 0 ∨ (d.inW : Int) ≤ ix then none else (m.row iy).map fun r => (r, ix.toNat)

/-- Scale of a padded MX position: that of its block in the window's first in-range position, and 1 where there is none. -/
def padNum (d : PrimeDesc) (win : List (Option (Bytes × Nat))) (ch : Nat) : NumVal :=
  if isMx d.fmtIn then
    match win.findSome? id with
    | some (r, x) => decodeScaled d.fmtIn d.padVal (leAt r (rowElems d.fmtIn d.inW d.cIn + x * ceilDiv d.cIn 32 + ch / 32) 1)
    | none => decodeScaled d.fmtIn d.padVal 127
  else decodeElem d.fmtIn d.padVal

def winNum (d : PrimeDesc) (win : List (Option (Bytes × Nat))) (q : Option (Bytes × Nat)) (ch : Nat) : NumVal :=
  match q with
  | some (r, x) => rowNum d.fmtIn d.inW d.cIn r x ch
  | none => padNum d win ch

/-- Contact-sheet row of group g (R86). -/
def sheetRow (d : PrimeDesc) (win : List (Option (Bytes × Nat))) (g : Nat) : List NumVal :=
  win.flatMap fun q => (List.range d.cg).map fun c => winNum d win q (g * d.cg + c)

/-- Tile of pixel p and channel c (R85). -/
def tileOf (d : PrimeDesc) (pixels p c : Nat) : Nat := c / max 1 d.tileCh * ceilDiv pixels (max 1 d.tilePix) + p / max 1 d.tilePix

/-- The residual element (R90): a value, or a partial ledger's record.  One in code 0xD or 0xE, which R64 does not name, enters as the
integer that it is (DESIGN CHOICE, log entry 43). -/
def addResidual (d : PrimeDesc) (l : Led) (res : Option Bytes) (x c w : Nat) : Led :=
  match res with
  | none => l
  | some r =>
    if d.out = 0xF then
      match Led.ofBytes ((r.drop (24 * (x * d.cOut + c))).take 24) with
      | some q => l.join q
      | none => l
    else l.addNum (rowNum d.out w d.cOut r x c)

/-- Output channel c of a pixel of a CONV or MATMUL. -/
def convOut (d : PrimeDesc) (im can : Bytes) (sheets : List (List NumVal)) (res : Option Bytes) (pixels p x c w : Nat) : PreOut :=
  let g := c / max 1 d.cog
  let cc := c % max 1 d.cog
  let tiles := ceilDiv d.cog 32
  let wb := can.drop d.weightCan
  let ti := tileOf d pixels p c
  let t := tileEntry im d.tileTab ti
  let l : Led := { anchor := t.anchor }
  let l := l.dot (sheets.getD g []) ((List.range d.k).map fun k => weightNum d.fmtW d.kPad wb (g * tiles + cc / 32) k (cc % 32))
  let l := if d.bias then l.addNum (decodeElem 0xC (leAt can (d.biasCan + 4 * c) 4)) else l
  preClose (addResidual d l res x c w) t ti d.act d.sat d.out

/-- The larger of two values; a NaN wins (R75). -/
def numMax (a b : NumVal) : NumVal :=
  match a, b with
  | .nan, _ => .nan
  | _, .nan => .nan
  | .inf false, _ => a
  | _, .inf false => b
  | .inf true, _ => b
  | _, .inf true => a
  | .fin m e, .fin n f => if (dyAdd (m, e) (-n, f)).1 < 0 then b else a

/-- POOL_MAX of one channel: the code written back (R93). -/
def poolMaxCode (d : PrimeDesc) (win : List (Option (Bytes × Nat))) (c : Nat) : Nat :=
  let l := win.filterMap fun q => q.map fun (y : Bytes × Nat) => (rowCode d.fmtIn d.cIn y.1 y.2 c, rowNum d.fmtIn d.inW d.cIn y.1 y.2 c)
  let f32of (v : NumVal) (w : Nat) : Nat := match v with
    | .nan => fNan | .inf n => fInf n | .fin m e => if m = 0 then fZero (w.testBit (fmtBits d.fmtIn - 1) && !isIntFmt d.fmtIn) else fRound m e
  match l with
  | [] => d.padVal
  | x :: r =>
    let best := r.foldl (fun (b : Nat × Nat) (y : Nat × NumVal) =>
      let w := f32of y.2 y.1
      if fIsNan b.2 then b else if fIsNan w then (y.1, w) else if fLess b.2 w then (y.1, w) else b) (x.1, f32of x.2 x.1)
    if fIsNan best.2 then (match floatFmt d.fmtIn with | some f => fitNan f | none => best.1) else best.1

/-- POOL_MAX of one channel of an MX format: the value whose block takes its scale with the other channels (R73, R93; log entry 43). -/
def poolMaxNum (d : PrimeDesc) (win : List (Option (Bytes × Nat))) (c : Nat) : PreOut :=
  let l := win.filterMap fun q => q.map fun (y : Bytes × Nat) => rowNum d.fmtIn d.inW d.cIn y.1 y.2 c
  let v := match l with
    | [] => decodeScaled d.fmtIn d.padVal 127
    | x :: r => r.foldl (fun b y => numMax b y) x
  { v := v, led := {}, tile := 0 }

/-- POOL_AVG of one channel (R94). -/
def poolAvgOut (d : PrimeDesc) (im : Bytes) (win : List (Option (Bytes × Nat))) (pixels p c : Nat) : PreOut :=
  let ti := tileOf d pixels p c
  let t := tileEntry im d.tileTab ti
  let n := if d.countPad then d.kh * d.kw else countIf (fun q => q.isSome) win
  let l := win.foldl (fun (l : Led) q => if q.isSome || d.countPad then l.addNum (winNum d win q c) else l) { anchor := t.anchor }
  let n := max 1 n
  preClose l { t with mult := (2 ^ 32 + n) / (2 * n), shift := 31 } ti 0 d.sat d.out

/-- What an operation yields: rows without padding, saturations, overflowing tiles. -/
structure OpOut where
  rows : List Bytes
  sat : Nat
  ovf : List (Nat × Nat)
  /-- Outputs before their last rounding, with their ledgers. -/
  pre : List PreOut
  deriving DecidableEq, Repr

/-- Output rows oy0 to oy0 + n − 1 of an operation. -/
def runMap (d : PrimeDesc) (im can : Bytes) (m : MapIn) (res : Option Bytes) (oy0 : Int) (n : Nat) : OpOut :=
  let w := d.outW.toNat
  let pixels := d.tableRows * w
  let one (r : Nat) : List PreOut × Bytes :=
    let wins := (List.range w).map fun ox => window d m (oy0 + r) ox
    let resRow := res.map fun b => (b.drop (r * rowBytes d.out w d.cOut)).take (rowBytes d.out w d.cOut)
    if d.op = opPoolMax && isMx d.fmtIn then
      ((List.range w).flatMap fun x => (List.range d.cIn).map fun c => poolMaxNum d (wins.getD x []) c, [])
    else if d.op = opPoolMax then
      ([], packElems d.fmtIn ((List.range w).flatMap fun x => (List.range d.cIn).map fun c => poolMaxCode d (wins.getD x []) c))
    else if d.op = opPoolAvg then
      ((List.range w).flatMap (fun x => (List.range d.cIn).map fun c => poolAvgOut d im (wins.getD x []) pixels (r * w + x) c), [])
    else
      ((List.range w).flatMap (fun x =>
        let sheets := (List.range d.groups).map fun g => sheetRow d (wins.getD x []) g
        (List.range d.cOut).map fun c => convOut d im can sheets resRow pixels (r * w + x) x c w), [])
  let rs := (List.range n).map one
  let closed := rs.map fun (x : List PreOut × Bytes) =>
    if d.op = opPoolMax && !isMx d.fmtIn then (x.2, 0) else closeRow d.out d.rnd d.sat (if d.op = opPoolAvg || d.op = opPoolMax then d.cIn else d.cOut) x.1
  { rows := closed.map fun (x : Bytes × Nat) => x.1, sat := sumNat (closed.map fun (x : Bytes × Nat) => x.2),
    ovf := overflows (rs.flatMap fun (x : List PreOut × Bytes) => x.1), pre := rs.flatMap fun (x : List PreOut × Bytes) => x.1 }

/-- Rows padded as a can map and joined. -/
def joinRows (rows : List Bytes) : Bytes := rows.flatMap fun r => fitBytes (roundUp r.length 16) r

/-- Output rows whose last input row lies below global row g (R88). -/
def rowsBefore (d : PrimeDesc) (g : Nat) : Nat :=
  let x : Int := (g : Int) - 1 + d.padT - ((d.kh - 1) * d.dy : Nat)
  if x < 0 then 0 else (x / d.sy).toNat + 1

/-! ### EMIT (R431) -/

/-- Sort key of a candidate (R103). -/
def candKey (b : Bytes) : Int × List Nat :=
  (-(fKey (leAt b 0x10 4)), [leAt b 0x14 2, leAt b 0x16 2, leAt b 0x1C 2, leAt b 0x18 4, beNat b])

def lexLess (a b : List Nat) : Bool :=
  match a, b with
  | x :: r, y :: t => if x < y then true else if y < x then false else lexLess r t
  | _, _ => false

def candLess (a b : Bytes) : Bool :=
  let x := candKey a
  let y := candKey b
  if x.1 < y.1 then true else if y.1 < x.1 then false else lexLess x.2 y.2

def insCand (l : List Bytes) (c : Bytes) : List Bytes :=
  match l with
  | [] => [c]
  | b :: r => if candLess c b then c :: b :: r else b :: insCand r c

def sortCands (l : List Bytes) : List Bytes := l.foldl insCand []

/-- Candidates of an EMIT, the first EMIT_MAX in the order of R103. -/
def emitCands (d : PrimeDesc) (m : Bytes) : List Bytes :=
  let a := max 1 d.kh
  let per := d.cIn / a
  let all := (List.range d.inRows).flatMap fun oy => (List.range d.inW).flatMap fun ox => (List.range a).flatMap fun k =>
    let row := mapRow 0xC d.inW d.cIn m oy
    let at' (c : Nat) : Nat := rowCode 0xC d.cIn row ox (k * per + c)
    (List.range (per - 4)).filterMap fun c =>
      let sc := at' (4 + c)
      if fIsNan sc || decide (fKey sc < fKey d.tileTab) then none
      else some ((List.range 4).flatMap (fun t => leBytes 4 (at' t)) ++ leBytes 4 sc ++ leBytes 2 c ++ leBytes 2 d.groups
        ++ (if d.flags.testBit 0 then leBytes 2 ox ++ leBytes 2 oy else leBytes 4 ((oy * d.inW + ox) * a + k))
        ++ leBytes 2 d.tilePix ++ leBytes 2 0)
  (sortCands all).take d.cOut

/-! ### Zero-run packing (R95, R96) -/

def zeroRun (b : Bytes) : Nat :=
  match b with
  | [] => 0
  | x :: r => if x = 0 then zeroRun r + 1 else 0

/-- Length of the literal run at the front. -/
def literalRun (b : Bytes) (n : Nat) : Nat :=
  match b, n with
  | _, 0 => 0
  | [], _ => 0
  | x :: r, n + 1 => if 3 ≤ zeroRun (x :: r) then 0 else 1 + literalRun r n

def packLoop (b : Bytes) (fuel : Nat) : Bytes :=
  match fuel with
  | 0 => []
  | fuel + 1 =>
    if b.isEmpty then []
    else
      let z := zeroRun b
      if 3 ≤ z then
        (if z ≤ 129 then leBytes 1 (0x7D + z) else leBytes 1 0xFF ++ leBytes 2 (z - 130)) ++ packLoop (b.drop z) fuel
      else
        let n := literalRun b 128
        leBytes 1 (n - 1) ++ b.take n ++ packLoop (b.drop n) fuel

/-- Packets of at most 4,096 raw bytes. -/
def packStream (b : Bytes) (fuel : Nat) : Bytes :=
  match fuel with
  | 0 => []
  | fuel + 1 =>
    if b.isEmpty then []
    else
      let c := b.take 4096
      let p := packLoop c 4097
      leBytes 2 c.length ++ leBytes 2 p.length ++ p ++ packStream (b.drop 4096) fuel

def packBytes (b : Bytes) : Bytes := packStream b (b.length / 4096 + 1)

/-! ### Streams (R81, R83, R433) -/

/-- Id of the first item of an item's dispatch. -/
def Item.base (i : Item) : Nat := i.id - i.idx

/-- Key of the stream that leaves a cell by a port, in the item's dispatch; a class A stream runs on from tick to tick. -/
def Item.streamKey (i : Item) (cell port : Nat) : Nat := (if i.cls = 1 then 0 else i.base) * 65536 + 2 * cell + port

def State.streamOf (s : State) (k : Nat) : Bytes := mget (fun _ => []) s.units.streams k

def State.setStream (s : State) (k : Nat) (b : Bytes) : State :=
  { s with units := { s.units with streams := mset (fun _ => []) s.units.streams k b } }

/-- Request that a class B or C item serves. -/
def State.itemReq (s : State) (i : Item) : Option Req :=
  if i.cls = 2 then (s.runOf i.p i.ctx).map fun r => r.req
  else if i.cls = 3 then (s.sched.batches.find? fun b => b.p = i.p && b.slot = i.slot).map fun b => b.req
  else none

/-- Partition-space address of a main-store stream's offset (R433). -/
def State.streamAddr (s : State) (i : Item) (r : Reel) (mem : Nat) : Nat :=
  let off := mem % 2 ^ 62
  match mem / 2 ^ 62, s.itemReq i with
  | 0, _ => off
  | 1, _ => r.loadAddr + off
  | 2, some q => q.addr0 + off
  | 2, none => match takeTable r.image with | some t => t.ringOff + i.tick % max 1 t.ringTicks * t.tickBytes + off | none => off
  | _, some q => q.addr1 + off
  | _, none => off

/-- Key of a main-store stream in the item's dispatch. A stream runs on through the items of one dispatch in the order in which
they take or send its bytes, and starts at its offset again in the next (R83, R433; DEDUCED). -/
def Item.posKey (i : Item) (cell out port : Nat) : Nat := i.base * 65536 + 4 * cell + 2 * out + port

/-- Bytes already moved on it. -/
def State.streamAt (s : State) (k : Nat) : Nat := mget (fun _ => 0) s.units.streamPos k

def State.moveStream (s : State) (k n : Nat) : State :=
  { s with units := { s.units with streamPos := mmod (fun _ => 0) s.units.streamPos k (· + n) } }

def State.cellUser (_ : State) (i : Item) : Requester := { p := i.p, unit := unitCode i.page, clsA := decide (i.cls = 1) }

/-- What a read of an inbound stream gives. -/
inductive Inbound where
  | got (b : Bytes)
  /-- Bytes have not arrived yet. -/
  | wait
  | err (e : StoreErr)
  deriving DecidableEq, Repr

/-- The outbound port of cell `src` whose stream inbound port k of cell v takes: its one port that names v, or, where both do, the
ports in their order, as the inbound ports of v that name `src` (R83; log entry 51). -/
def sendPort (im : Bytes) (v k src : Nat) : Nat :=
  let sc := cutRec im src
  if sc.dst 0 ≠ v then 1
  else if sc.dst 1 = v && k = 1 && (cutRec im v).src 0 = src then 1
  else 0

/-- The next n bytes of inbound port k of a prime cell; `ext` is what a source without a store of its own delivers. -/
def State.recv (s : State) (i : Item) (r : Reel) (k n : Nat) (ext : List Bytes) : Inbound × State :=
  let c := cutRec r.image i.unit
  let src := c.src k
  if src = 0x600 then
    let pk := i.posKey i.unit 0 k
    let a := s.streamAddr i r (c.mem k) + s.streamAt pk
    match s.load (s.cellUser i) a n with
    | (.error e, s) => (.err e, s)
    | (.ok b, s) => (.got b, s.moveStream pk n)
  else if src < 0xE0 then
    let key := i.streamKey src (sendPort r.image i.unit k src)
    let b := s.streamOf key
    if b.length < n then (.wait, s) else (.got (b.take n), s.setStream key (b.drop n))
  else (.got (fitBytes n (ext.getD k [])), s)

/-- Staging area of a Telecine context: the operation descriptor that reads it (R207). -/
def stagingOf (im : Bytes) (unit : Nat) : Option TeleDesc :=
  ((sheet im).find? fun e => e.unit = unit && e.op = opEncode && (teleDesc (descBytes im e.desc 64)).staged).map
    fun e => teleDesc (descBytes im e.desc 64)

/-- Send output bytes on outbound port k: none, or how the store failed.  PACK_RAW and PACK_OUT count each send's bytes in whole units
of 64 (DESIGN CHOICE, log entry 73). -/
def State.send (s : State) (i : Item) (r : Reel) (k : Nat) (b : Bytes) : Option StoreErr × State :=
  let c := cutRec r.image i.unit
  let dst := c.dst k
  let s := if c.packed k then
      (s.countFor i.p i.page 0x5C 0x110 (b.length / 64)).countFor i.p i.page 0x60 0x114 ((packBytes b).length / 64)
    else s
  let pk := i.posKey i.unit 1 k
  let put (a : Nat) : Option StoreErr × State :=
    match s.store (s.cellUser i) a b with
    | (some e, s) => (some e, s)
    | (none, s) => (none, s.moveStream pk b.length)
  if dst = 0x600 then put (s.streamAddr i r (c.mem k) + s.streamAt pk)
  else if dst < 0xE0 then
    let key := i.streamKey i.unit k
    (none, s.setStream key (s.streamOf key ++ b))
  else if 0x400 ≤ dst ∧ dst < 0x440 then
    match stagingOf r.image dst with
    | some t => put (t.work + s.streamAt pk)
    | none => (none, s)
  else (none, s)

/-! ### The can and the contact sheet (R82, R84, R86, R98) -/

/-- Weight bytes of a CONV or MATMUL in the can (R434). -/
def PrimeDesc.canWeights (d : PrimeDesc) : Nat := d.groups * ceilDiv d.cog 32 * tileBytes d.fmtW d.kPad

/-- Input and output maps in the can layout. -/
def PrimeDesc.inMap (d : PrimeDesc) : Nat := d.inRows * rowBytes (if d.op = opEmit then 0xC else d.fmtIn) d.inW d.cIn
def PrimeDesc.outMap (d : PrimeDesc) : Nat := if d.op = opEmit then 0 else d.tableRows * rowBytes d.out d.outW.toNat d.cOut

/-- First can byte past everything that an operation uses there. -/
def PrimeDesc.canTop (d : PrimeDesc) : Nat :=
  let conv : Bool := d.op = opConv || d.op = opMatmul
  maxNat [if conv then d.weightCan + d.canWeights else 0, if conv && d.bias then d.biasCan + 4 * d.cOut else 0,
    if d.halo then d.haloCan + (d.kh - 1) * d.dy * rowBytes d.fmtIn d.inW d.cIn else 0,
    if d.outPort = 2 then d.outCan + d.outMap else 0, if d.inPort = 2 then d.inCan + d.inMap else 0]

/-- Contact-sheet rows in a half for one pass (R86). -/
def PrimeDesc.passPitch (d : PrimeDesc) : Nat := roundUp (ceilDiv (d.kPad / max 1 d.ksplit * fmtBits d.fmtIn) 8) 16
def PrimeDesc.halfRows (d : PrimeDesc) : Nat := 131072 / max 1 d.passPitch / 32 * 32
def PrimeDesc.sheetNeed (d : PrimeDesc) : Nat :=
  if d.op = opConv || d.op = opMatmul then
    min (2 * d.halfRows) (roundUp (d.tableRows * d.outW.toNat * d.groups) 32) * d.passPitch
  else 0

/-- Input band under BAND residency: the rows that a window covers (R82, R98; DESIGN CHOICE, log entry 51). -/
def PrimeDesc.bandBytes (d : PrimeDesc) : Nat :=
  if d.inPort = 2 then 0
  else if d.op = opEmit then rowBytes 0xC d.inW d.cIn
  else min d.inRows ((d.kh - 1) * d.dy + 1) * rowBytes d.fmtIn d.inW d.cIn

/-- Output staging: one output row (R82; DESIGN CHOICE, log entry 51). -/
def PrimeDesc.stageBytes (d : PrimeDesc) : Nat :=
  if d.outPort = 2 || d.op = opEmit then 0 else rowBytes d.out d.outW.toNat d.cOut

/-- First can byte past the weights, constants, halo areas and can maps of a virtual cell. -/
def canUsed (im : Bytes) (v : Nat) : Nat :=
  let c := cutRec im v
  max (c.weightCan + c.weightLen)
    (maxNat (((itemsOfCell im v).filter fun e => !isMixOp e.op).map fun e => (e.prime im).canTop))

/-! ### The item (R86–R99) -/

/-- Weights of a class B or C cell come in at each dispatch (R112): none, or how the stream failed. -/
def State.fillCan (s : State) (i : Item) (r : Reel) : Option StoreErr × State :=
  if i.cls = 1 then (none, s)
  else
    let c := cutRec r.image i.unit
    let put (s : State) (b : Bytes) : State := s.modUnit i.page fun u => { u with
      can := msetMany memDefault u.can c.weightCan b
      canPages := c.canPages, csPages := c.csPages }
    match weightPort c with
    | some k =>
      let a := r.loadAddr + c.mem k % 2 ^ 62
      match s.load (s.cellUser i) a c.weightLen with
      | (.error e, s) => (some e, s)
      | (.ok b, s) => (none, put s b)
    | none => (none, put s ((r.image.drop c.weightSrc).take c.weightLen))

def State.canBytes (s : State) (pg o n : Nat) : Bytes := mgetMany memDefault (s.unit pg).can o n
def State.setCan (s : State) (pg o : Nat) (b : Bytes) : State :=
  s.modUnit pg fun u => { u with can := msetMany memDefault u.can o b }

/-- Bytes of the can that an operation may read. -/
def canSize : Nat := 2 * 1024 * 1024

/-- Halt the item on a stream access that failed: a poisoned granule is a parity error at the port that it comes in by, any other
failure a bus error.  The latch names the address that failed (R109, R179). -/
def State.streamHalt (s : State) (i : Item) (e : StoreErr) : State :=
  s.cellHalt i (if e.isParity then .fabric else .stream) (s.failAt i.p e)

/-- A residual ledger record with a reserved bit set, or of a foreign anchor (R64, R66; log entry 94). -/
def badRecords (im : Bytes) (d : PrimeDesc) (res : Option Bytes) : Bool :=
  match res with
  | some b => d.out = 0xF && (List.range (b.length / 24)).any fun k =>
      match Led.ofBytes ((b.drop (24 * k)).take 24) with
      | none => true
      | some l => l.anchor ≠ (tileEntry im d.tileTab
          (tileOf d (d.tableRows * d.outW.toNat) (k / max 1 d.cOut) (k % max 1 d.cOut))).anchor
  | none => false

/-- Rows of the item's map: the halo of the tick before, then its own (R88); and its output rows.  A MATMUL runs all its IN_W × IN_ROWS
pixels, however many rows a prefill chunk has (DESIGN CHOICE, log entry 39). -/
def State.itemMap (s : State) (i : Item) (r : Reel) (d : PrimeDesc) (m : Bytes) : MapIn × Int × Nat :=
  let own := (List.range d.inRows).map fun y => mapRow d.fmtIn d.inW d.cIn m y
  if d.halo && i.cls = 1 then
    let g := (i.tick - r.loadTick) * d.inRows
    let h := (d.kh - 1) * d.dy
    let rb := rowBytes d.fmtIn d.inW d.cIn
    let old := if g = 0 then [] else (List.range h).map fun y => s.canBytes i.page (d.haloCan + y * rb) rb
    let skip := h - min h g
    ({ rows := old.drop skip ++ own, first := (g : Int) - ((old.drop skip).length : Nat) }, rowsBefore d g, rowsBefore d (g + d.inRows) - rowsBefore d g)
  else ({ rows := own, first := 0 }, 0, d.outH.toNat)

/-- Keep the last rows as halo (R88). -/
def State.keepHalo (s : State) (i : Item) (d : PrimeDesc) (m : MapIn) : State :=
  let h := (d.kh - 1) * d.dy
  if d.halo && i.cls = 1 && decide (0 < h) then
    let rb := rowBytes d.fmtIn d.inW d.cIn
    let last := List.replicate (h - m.rows.length) (List.replicate rb (0 : Byte)) ++ m.rows.drop (m.rows.length - h)
    (s.setCan i.page d.haloCan last.flatten).modUnit i.page fun u => { u with halos := mset (fun _ => 0) u.halos i.idx (h * rb) }
  else s

/-- Put an operation's rows: into the can map, or out of a port as raw elements (R84, R207). -/
def State.putOut (s : State) (i : Item) (r : Reel) (d : PrimeDesc) (rows : List Bytes) : Option StoreErr × State :=
  if d.outPort = 2 then (none, s.setCan i.page d.outCan (joinRows rows))
  else if emitFed r.image i.unit d.outPort then s.send i r d.outPort (joinRows rows)
  else s.send i r d.outPort (enstream d.out d.outW.toNat (if d.op = opPoolMax || d.op = opPoolAvg then d.cIn else d.cOut) rows)

/-- WHOLE residency folds every output byte into MAP_CRC (R98). -/
def State.foldCrc (s : State) (i : Item) (r : Reel) (rows : List Bytes) : State :=
  if (cutRec r.image i.unit).residency = 1 then s.modUnit i.page fun u => { u with mapCrc := crc64 u.mapCrc rows.flatten } else s

/-- Contact-sheet row of group g for one output pixel, as codes: zero from K to K_pad − 1 (R86). -/
def sheetCodes (d : PrimeDesc) (win : List (Option (Bytes × Nat))) (g : Nat) : List Nat :=
  let l := win.flatMap fun q => (List.range d.cg).map fun c =>
    match q with
    | some (r, x) => rowCode d.fmtIn d.cIn r x (g * d.cg + c)
    | none => d.padVal
  l ++ List.replicate (d.kPad - l.length) 0

/-- Row n of the contact sheet in the order in which the copier fills it: group by group, pass by pass, pixel by pixel. -/
def sheetBytes (d : PrimeDesc) (m : MapIn) (oy0 : Int) (pixels n : Nat) : Bytes :=
  let w := max 1 d.outW.toNat
  let p := n % max 1 pixels
  let q := n / max 1 pixels
  let pass := d.kPad / max 1 d.ksplit
  let codes := sheetCodes d (window d m (oy0 + (p / w : Nat)) (p % w)) (q / max 1 d.ksplit)
  fitBytes d.passPitch (packElems d.fmtIn ((codes.drop (q % max 1 d.ksplit * pass)).take pass))

/-- The contact-sheet buffer after an operation: its halves, filled in turn, hold their last rows (R86). -/
def State.keepSheets (s : State) (i : Item) (d : PrimeDesc) (m : MapIn) (oy0 : Int) (pixels : Nat) : State :=
  let rows := max 1 d.halfRows
  let total := d.groups * d.ksplit * pixels
  let first := total - min total (2 * rows)
  (List.range (total - first)).foldl (fun s k =>
    let n := first + k
    s.modUnit i.page fun u => { u with
      aux := msetMany memDefault u.aux (n / rows % 2 * 131072 + n % rows * d.passPitch) (sheetBytes d m oy0 pixels n) }) s

/-- The two ledger sets after an operation: the last two blocks of 32 pixels by 32 channels (R80). -/
def State.keepLedgers (s : State) (i : Item) (cOut : Nat) (pre : List PreOut) : State :=
  let n := max 1 cOut
  let wide := ceilDiv n 32
  let blocks := ceilDiv (pre.length / n) 32 * wide
  let block (b : Nat) : Bytes := (List.range 1024).flatMap fun k =>
    match (if b % wide * 32 + k % 32 < n then pre[(b / wide * 32 + k / 32) * n + b % wide * 32 + k % 32]? else none) with
    | some x => x.led.bytes
    | none => fitBytes 24 []
  if blocks = 0 then s
  else s.modUnit i.page fun u => { u with ledgers := ((List.range blocks).drop (blocks - 2)).map block }

/-- WHOLE residency keeps the item's maps in the can, past what else the cell holds there (R98; their place is a DESIGN CHOICE, log
entry 51). -/
def State.keepWhole (s : State) (i : Item) (r : Reel) (d : PrimeDesc) (m : Bytes) (rows : List Bytes) : State :=
  if (cutRec r.image i.unit).residency ≠ 1 then s
  else
    let o := canUsed r.image i.unit
    let s := if d.inPort = 2 then s else s.setCan i.page o m
    if d.outPort = 2 then s else s.setCan i.page (o + d.inMap) (joinRows rows)

/-- The main input of an operation, as a map in the can map layout. -/
def State.mainInput (s : State) (i : Item) (r : Reel) (d : PrimeDesc) (ext : List Bytes) : Inbound × State :=
  let fmt := if d.op = opEmit then 0xC else d.fmtIn
  let n := d.inRows * rowBytes fmt d.inW d.cIn
  if d.inPort = 2 then (.got (s.canBytes i.page d.inCan n), s)
  else if d.op = opEmit then s.recv i r d.inPort n ext
  else match s.recv i r d.inPort (streamLen fmt d.inW d.cIn d.inRows) ext with
    | (.got b, s) => (.got (unstream fmt d.inW d.cIn d.inRows b), s)
    | x => x

/-- How a unit's work ends. -/
inductive Work where
  | done | wait | halted
  deriving DecidableEq, Repr

/-- EMIT. -/
def State.runEmit (s : State) (i : Item) (r : Reel) (d : PrimeDesc) (ext : List Bytes) : Work × State :=
  match s.mainInput i r d ext with
  | (.wait, s) => (.wait, s)
  | (.err e, s) => (.halted, s.streamHalt i e)
  | (.got m, s) => (.done, s.setStream (i.id * 65536 + 65535) (emitCands d m).flatten)

/-- CONV, MATMUL and the pools, once every input byte is there.  CS_COPY counts the contact sheets of CONV and MATMUL only, each item's
bytes in whole units of 64 (DESIGN CHOICE, log entry 73). -/
def State.runConv (s : State) (i : Item) (r : Reel) (d : PrimeDesc) (m : Bytes) (res : Option Bytes) : Work × State :=
  if badRecords r.image d res then (.halted, s.cellHalt i .fabric 0)
  else
    let can := s.canBytes i.page 0 canSize
    let (mp, oy0, n) := s.itemMap i r d m
    let o := runMap d r.image can mp (res.map (unstream d.out d.outW.toNat d.cOut n)) oy0 n
    let pixels := n * d.outW.toNat
    let s := s.keepHalo i d mp
    let s := (s.foldCrc i r o.rows).keepWhole i r d m o.rows
    let conv : Bool := d.op = opConv || d.op = opMatmul
    let s := if conv then
        let s := s.countFor i.p i.page (if i.cls = 1 then 0x4C else 0x50) (if i.cls = 1 then 0x100 else 0x104) (d.arrayCycles pixels)
        let s := s.profile i.p fun f => { f with prime := f.prime + d.arrayCycles pixels }
        let s := (s.keepSheets i d mp oy0 pixels).keepLedgers i d.cOut o.pre
        s.countFor i.p i.page 0x64 0x118 (pixels * d.groups * d.pitch / 64)
      else s
    let s := s.countFor i.p i.page 0x58 0x10C o.sat
    let s := s.reportOvf i 0x54 0x108 o.ovf
    match s.putOut i r d o.rows with
    | (some e, s) => (.halted, s.streamHalt i e)
    | (none, s) => (.done, s)

/-- The work of a prime cell's item; an item whose bytes have not arrived changes nothing. -/
def State.runPrime (s : State) (i : Item) (r : Reel) (ext : List Bytes) : Work × State :=
  let d := primeDesc (descBytes r.image i.desc 64)
  let s0 := s
  match s.fillCan i r with
  | (some e, s) => (.halted, s.streamHalt i e)
  | (none, s) =>
    if d.op = opEmit then
      match s.runEmit i r d ext with
      | (.wait, _) => (.wait, s0)
      | x => x
    else
      match s.mainInput i r d ext with
      | (.wait, _) => (.wait, s0)
      | (.err e, s) => (.halted, s.streamHalt i e)
      | (.got m, s) =>
        if d.residual then
          let (_, _, n) := s.itemMap i r d m
          match s.recv i r (if d.inPort = 2 then 0 else 1 - d.inPort) (residualBytes d n) ext with
          | (.wait, _) => (.wait, s0)
          | (.err e, s) => (.halted, s.streamHalt i e)
          | (.got b, s) => s.runConv i r d m (some b)
        else s.runConv i r d m none

end Sys2Proof.Machine
end

