-- ==== Sys2Proof/Machine/Framing.lean ====
section
/-! DEFINITION. The Framing unit: decoding, order, suppression, detections and the cue table (R100–R106, R111, R432). -/
namespace Sys2Proof.Machine

/-! ### Descriptors and candidates (R100, R101) -/

structure Box where
  x1 : Nat
  y1 : Nat
  x2 : Nat
  y2 : Nat
  deriving DecidableEq, Repr

/-- A decoded candidate: its 32 bytes, its box and the FLAGS of its detection. -/
structure Cand where
  raw : Bytes
  box : Box
  flags : Nat
  deriving DecidableEq, Repr

def candT (b : Bytes) (k : Nat) : Nat := leAt b (4 * k) 4
def candScore (b : Bytes) : Nat := leAt b 0x10 4
def candClass (b : Bytes) : Nat := leAt b 0x14 2
def candGroup (b : Bytes) : Nat := leAt b 0x16 2
def candAnchor (b : Bytes) : Nat := leAt b 0x18 4
def candTile (b : Bytes) : Nat := leAt b 0x1C 2

/-- a < b and a ≤ b of two binary32 codes; false with a NaN. -/
def fLt (a b : Nat) : Bool := !fIsNan a && !fIsNan b && decide (fKey a < fKey b)
def fLe (a b : Nat) : Bool := !fIsNan a && !fIsNan b && decide (fKey a ≤ fKey b)

/-- An unsigned integer converted exactly. -/
def fOfNat (n : Nat) : Nat := fRound n 0

/-! ### Decoding (R102) -/

/-- Centre and size of a candidate, and whether a size reached CLAMP_WH (R105). -/
def decodeCentre (d : FrameDesc) (im : Bytes) (b : Bytes) : Nat × Nat × Nat × Nat × Bool :=
  if d.centre then
    let gx := fOfNat (candAnchor b % 65536)
    let gy := fOfNat (candAnchor b / 65536)
    (fMul (fAdd gx (candT b 0)) d.stride, fMul (fAdd gy (candT b 1)) d.stride,
     fMul (fMax (candT b 2) 0) d.stride, fMul (fMax (candT b 3) 0) d.stride, false)
  else
    let o := d.anchorTab + 16 + 16 * candAnchor b
    let wa := leAt im (o + 8) 4
    let ha := leAt im (o + 12) 4
    let tw := fMul (candT b 2) d.vw
    let th := fMul (candT b 3) d.vh
    (fAdd (leAt im o 4) (fMul (fMul (candT b 0) d.vx) wa), fAdd (leAt im (o + 4) 4) (fMul (fMul (candT b 1) d.vy) ha),
     fMul wa (fExp (fMin tw d.clampWh)), fMul ha (fExp (fMin th d.clampWh)), fLe d.clampWh tw || fLe d.clampWh th)

/-- 0.5 in binary32. -/
def fHalf : Nat := 0x3F000000

def clipTo (v lim : Nat) : Nat := fMin (fMax v 0) lim

def decodeCand (d : FrameDesc) (im : Bytes) (b : Bytes) : Cand :=
  let (cx, cy, w, h, reached) := decodeCentre d im b
  let o := d.originTab + 16 + 8 * candTile b
  let x0 := leAt im o 4
  let y0 := leAt im (o + 4) 4
  let hw := fMul w fHalf
  let hh := fMul h fHalf
  let q : Box := { x1 := fAdd (fSub cx hw) x0, y1 := fAdd (fSub cy hh) y0, x2 := fAdd (fAdd cx hw) x0, y2 := fAdd (fAdd cy hh) y0 }
  let c : Box := if d.clip then
      { x1 := clipTo q.x1 d.imgW, y1 := clipTo q.y1 d.imgH, x2 := clipTo q.x2 d.imgW, y2 := clipTo q.y2 d.imgH }
    else q
  let moved := fKey c.x1 ≠ fKey q.x1 || fKey c.y1 ≠ fKey q.y1 || fKey c.x2 ≠ fKey q.x2 || fKey c.y2 ≠ fKey q.y2
  { raw := b, box := c, flags := b2n moved + 2 * b2n reached }

/-! ### Dropping and order (R103) -/

/-- Check 1 to 3: 0 passes, 1 CAND_NAN, 2 below SCORE_MIN, 3 DEGENERATE. -/
def candCheck (d : FrameDesc) (im : Bytes) (b : Bytes) : Nat :=
  if fIsNan (candScore b) || (List.range 4).any fun k => fIsNan (candT b k) then 1
  else if fLt (candScore b) d.scoreMin then 2
  else
    let q := (decodeCand d im b).box
    if fLt q.x1 q.x2 && fLt q.y1 q.y2 then 0 else 3

/-- Candidates with the same GROUP, TILE, ANCHOR and CLASS. -/
def sameCand (a b : Bytes) : Bool :=
  candGroup a = candGroup b && candTile a = candTile b && candAnchor a = candAnchor b && candClass a = candClass b

/-- Keep the first of each identity, in key order; the number dropped. -/
def dropDups (l : List Bytes) (kept : List Bytes) : List Bytes × Nat :=
  match l with
  | [] => (kept.reverse, 0)
  | b :: r =>
    if kept.any (sameCand b) then
      let (k, n) := dropDups r kept
      (k, n + 1)
    else dropDups r (b :: kept)

/-! ### Suppression (R104) -/

def boxArea (b : Box) : Nat := fMul (fSub b.x2 b.x1) (fSub b.y2 b.y1)

/-- Does kept box a suppress b? -/
def suppresses (d : FrameDesc) (a b : Cand) : Bool :=
  if candGroup a.raw ≠ candGroup b.raw || (!d.agnostic && candClass a.raw ≠ candClass b.raw) then false
  else
    let iw := fMax (fSub (fMin a.box.x2 b.box.x2) (fMax a.box.x1 b.box.x1)) 0
    let ih := fMax (fSub (fMin a.box.y2 b.box.y2) (fMax a.box.y1 b.box.y1)) 0
    let inter := fMul iw ih
    let union := fSub (fAdd (boxArea a.box) (boxArea b.box)) inter
    fLt (fMul d.iouThr union) inter

/-- Kept boxes in key order, and whether candidates were left unexamined. -/
def suppress (d : FrameDesc) (kept : List Cand) (l : List Cand) : List Cand × Bool :=
  match l with
  | [] => (kept.reverse, false)
  | c :: r =>
    if kept.length = d.maxDet then (kept.reverse, true)
    else if kept.any (fun a => suppresses d a c) then suppress d kept r
    else suppress d (c :: kept) r

/-- A detection (R105). -/
def Cand.bytes (c : Cand) : Bytes :=
  leBytes 4 c.box.x1 ++ leBytes 4 c.box.y1 ++ leBytes 4 c.box.x2 ++ leBytes 4 c.box.y2 ++ leBytes 4 (candScore c.raw)
  ++ leBytes 2 (candClass c.raw) ++ leBytes 2 (candGroup c.raw) ++ leBytes 4 (candAnchor c.raw) ++ leBytes 2 (candTile c.raw)
  ++ leBytes 2 c.flags

/-- What a FRAME item finds. -/
structure Framed where
  kept : List Cand
  nans : Nat
  low : Nat
  degenerate : Nat
  dups : Nat
  limit : Bool
  deriving DecidableEq, Repr

def frame (d : FrameDesc) (im : Bytes) (cands : List Bytes) : Framed :=
  let verdicts := cands.map fun b => (candCheck d im b, b)
  let live := (verdicts.filter fun (x : Nat × Bytes) => x.1 = 0).map fun (x : Nat × Bytes) => x.2
  let n (k : Nat) : Nat := countIf (fun (x : Nat × Bytes) => x.1 = k) verdicts
  let (uniq, dups) := dropDups (sortCands live) []
  let (kept, limit) := suppress d [] ((uniq.take d.preTopk).map (decodeCand d im))
  { kept := kept, nans := n 1, low := n 2, degenerate := n 3, dups := dups, limit := limit }

/-! ### Cue rules (R432) -/

def cueMagic : Nat := 0x45554343

structure CueRule where
  output : Nat
  level : Nat
  maxHits : Nat
  rsvd : Nat
  classLo : Nat
  classHi : Nat
  group : Nat
  rsvd2 : Nat
  scoreMin : Nat
  delayNs : Nat
  rowNs : Nat
  pulseNs : Nat
  deriving DecidableEq, Repr

/-- First byte of the cue table: the first multiple of 64 after the state table. -/
def cueOff (im : Bytes) : Nat := let o := stateOff im; o + roundUp (16 + 16 * leAt im (o + 4) 2) 64

def cueRule (im : Bytes) (k : Nat) : CueRule :=
  let o := cueOff im + 16 + 32 * k
  { output := leAt im o 1, level := leAt im (o + 1) 1, maxHits := leAt im (o + 2) 1, rsvd := leAt im (o + 3) 1,
    classLo := leAt im (o + 4) 2, classHi := leAt im (o + 6) 2, group := leAt im (o + 8) 2, rsvd2 := leAt im (o + 10) 2,
    scoreMin := leAt im (o + 12) 4, delayNs := leAt im (o + 16) 8, rowNs := leAt im (o + 24) 4, pulseNs := leAt im (o + 28) 4 }

def cueRules (im : Bytes) : List CueRule :=
  if leAt im (cueOff im) 4 ≠ cueMagic then [] else (List.range (leAt im (cueOff im + 4) 2)).map (cueRule im)

/-- floor(Y1) clamped to 0 to 65,535. -/
def cueRow (y1 : Nat) : Nat :=
  if fIsInf y1 then (if fNeg y1 then 0 else 65535)
  else
    let v := fVal y1
    let f := floorShift v.1 v.2
    if f < 0 then 0 else min f.toNat 65535

/-- One entry of the CUE section (R321). -/
def cueEntry (output level tick p t : Nat) : Bytes :=
  leBytes 1 output ++ leBytes 1 level ++ leBytes 2 0 ++ leBytes 4 (t % (p * 1000)) ++ leBytes 8 (tick + 2 + t / (p * 1000))

/-- Edges that a rule places for the detections of a tick. -/
def CueRule.edges (r : CueRule) (tick p : Nat) (kept : List Cand) : Bytes :=
  let hit (c : Cand) : Bool := decide (r.classLo ≤ candClass c.raw) && decide (candClass c.raw ≤ r.classHi)
    && (r.group = 0xFFFF || candGroup c.raw = r.group) && fLe r.scoreMin (candScore c.raw)
  ((kept.filter hit).take r.maxHits).flatMap fun c =>
    let t := r.delayNs + cueRow c.box.y1 * r.rowNs
    cueEntry r.output r.level tick p t
      ++ (if 0 < r.pulseNs then cueEntry r.output (1 - r.level) tick p (t + r.pulseNs) else [])

def cueBytes (im : Bytes) (tick p : Nat) (kept : List Cand) : Bytes := (cueRules im).flatMap fun r => r.edges tick p kept

/-! ### The item -/

/-- Items of the dispatch from which an item follows, with fuel. -/
def ancestors (im : Bytes) (ks : List Nat) (fuel : Nat) : List Nat :=
  match fuel with
  | 0 => ks
  | f + 1 =>
    let more := ks.flatMap fun k => (sheetItem im k).preds.filter fun q => decide (q < 0x8000)
    ancestors im (ks ++ more.filter fun q => !ks.contains q) f

/-- EMIT items that feed a FRAME item: all of the sheet, or where several FRAME items stand in it, those it follows. -/
def feeders (im : Bytes) (idx : Nat) : List Nat :=
  let emits := ((sheet im).filter fun e => decide (e.unit < 0xE0) && e.op = opEmit).map fun e => e.idx
  if countIf (fun (e : SheetItem) => e.op = opFrame) (sheet im) ≤ 1 then emits
  else let a := ancestors im [idx] (sheetCount im); emits.filter a.contains

def chunk32 (b : Bytes) (n : Nat) : List Bytes := (List.range n).map fun k => (b.drop (32 * k)).take 32

/-- A class A slot of the output area (R105). -/
def outSlot (im : Bytes) (n : Nat) : Nat := n % max 1 (leAt im 0xD8 4) * leAt im 0xDC 4
def outBase (im : Bytes) : Nat := leAt im 0xD0 8

def State.repeatRaise (s : State) (pg b n : Nat) : State := (List.range n).foldl (fun s _ => s.raise pg b) s

/-- Counters and events of a FRAME item (R103, R104, R111, R266). -/
def State.frameCounts (s : State) (i : Item) (n : Nat) (d : FrameDesc) (o : Framed) : State :=
  let s := s.countFor i.p pgFraming 0x44 0x1E0 n
  let s := s.countFor i.p pgFraming 0x48 0x1E4 (o.nans + o.low + o.degenerate)
  let s := s.countFor i.p pgFraming 0x4C 0x1E8 o.dups
  let s := s.countFor i.p pgFraming 0x50 0x1EC o.kept.length
  let s := s.countFor i.p pgFraming 0x54 0x1F0 (b2n o.limit)
  let s := if i.cls = 1 && i.p = 0 then s.wr pgFraming 0x58 (word (frameFabric n d.preTopk d.maxDet)) else s
  let s := s.repeatRaise pgFraming 8 o.nans
  let s := s.repeatRaise pgFraming 11 o.degenerate
  let s := s.repeatRaise pgFraming 9 o.dups
  s.raiseIf o.limit pgFraming 10

/-- A fault of the Framing unit's item: a parity event, or a refused or failed store access. -/
def State.framingHalt (s : State) (i : Item) (e : StoreErr) (addr : Nat) (reh : Bool := false) : State :=
  match e with
  | .parity _ => (s.parityFault pgFraming 12 addr (word i.idx) reh).haltItem i codeParity reh
  | _ => s.haltItem i codeBus reh

/-- The work of a FRAME item. -/
def State.runFrame (s : State) (i : Item) (r : Reel) : Work × State :=
  let im := r.image
  let ids := (feeders im i.idx).map fun k => i.base + k
  if s.sched.items.any fun j => ids.contains j.id && j.open' then (.wait, s)
  else
    let d := frameDesc (descBytes im i.desc 64)
    let cands := ids.flatMap fun id => let b := s.streamOf (id * 65536 + 65535); chunk32 b (b.length / 32)
    let o := frame d im cands
    let dets := o.kept.flatMap Cand.bytes
    let off := if i.cls = 1 then outSlot im i.tick + d.outArea else d.outArea
    let base := if i.cls = 1 then outBase im else match s.itemReq i with | some q => q.addr1 | none => 0
    let s := s.frameCounts i cands.length d o
    match s.store (s.cellUser i) (base + off) dets with
    | (some e, s) => (.halted, s.framingHalt i e (s.failAt i.p e))
    | (none, s) =>
      if i.cls = 1 then
        let cues := cueBytes im i.tick s.periodUs o.kept
        (.done, s.modTick i.tick fun t => { t with count := o.kept.length, dets := dets, outOffset := off, cues := cues })
      else (.done, s)

end Sys2Proof.Machine
end

