-- ==== Sys2Proof/Machine/Draw.lean ====
section
/-! DEFINITION. Draw cells: STREAM_MATMUL and LOGITS (R114–R116, R139, R434). -/
namespace Sys2Proof.Machine

/-- Array cycles of `rows` rows (R116). -/
def DrawDesc.arrayCycles (d : DrawDesc) (rows : Nat) : Nat :=
  ceilDiv d.n 32 * ceilDiv rows 32 * max (d.kPad / kcOf d.fmtA d.fmtW) 32

/-- One row before its last rounding. -/
def drawRow (d : DrawDesc) (im wb : Bytes) (act res : Bytes) : List PreOut :=
  let xs := (List.range d.k).map fun k => rowNum d.fmtA 1 d.k act 0 k
  (List.range d.n).map fun c =>
    let t := tileEntry im d.tileTab (c / max 1 d.tileCh)
    let l : Led := { anchor := t.anchor }
    let l := l.dot xs ((List.range d.k).map fun k => weightNum d.fmtW d.kPad wb (c / 32) k (c % 32))
    let l := if d.bias then l.addNum (decodeElem 0xC (leAt im (d.biasOff + 4 * c) 4)) else l
    let l := if !d.residual then l
      else if d.out = 0xF then (match Led.ofBytes ((res.drop (24 * c)).take 24) with | some q => l.join q | none => l)
      else l.addNum (rowNum d.out 1 d.n res 0 c)
    preClose l t (c / max 1 d.tileCh) d.act d.sat d.out

/-- Offset of the activation area behind the two weight halves of the stream buffer. -/
def actBase : Nat := 3 * 1024 * 1024

/-- Key of the bytes that a draw or focus item sends on its outbound port. -/
def Item.outKey (i : Item) : Nat := i.id * 65536 + 65534

/-- One item's share of a batch: its rows close, are counted and leave by the outbound port or for the Cutter. -/
def State.closeRows (s : State) (i : Item) (d : DrawDesc) (pre : List (List PreOut)) : State :=
  let closed := pre.map fun l => closeRow d.out d.rnd d.sat d.n l
  let outs := closed.map fun (x : Bytes × Nat) => x.1
  let s := s.countFor i.p i.page 0x5C 0x130 (sumNat (closed.map fun (x : Bytes × Nat) => x.2))
  let s := s.reportOvf i 0x58 0x12C (overflows pre.flatten)
  let s := s.setStream i.outKey (enstream d.out 1 d.n outs)
  if d.op = opLogits then
    { s with units := { s.units with logits := mset (fun _ => []) s.units.logits i.id outs } }
  else s

/-- Close the rows of each item of a batch in turn. -/
def State.closeBatch (s : State) (d : DrawDesc) (l : List (Item × Nat)) (pre : List (List PreOut)) : State :=
  match l with
  | [] => s
  | (i, n) :: r => (s.closeRows i d (pre.take n)).closeBatch d r (pre.drop n)

/-- The work of a draw cell's item, with the rows of the items that it batches behind its own (R114).  The activation area holds
ROWS rows at a time (R115). -/
def State.runDraw (s : State) (i : Item) (r : Reel) (ext : List Bytes) : Work × State :=
  let im := r.image
  let d := drawDesc (descBytes im i.desc 64)
  let a := r.loadAddr + d.weight
  match s.load (s.cellUser i) a d.weightBytes with
  | (.error e, s) => (.halted, s.streamHalt i e)
  | (.ok wb, s) =>
    let members := (s.batchOf i).map fun j => (j, s.itemRows j d.rows)
    let rows := sumNat (members.map fun x => x.2)
    let acts := unstream d.fmtA 1 d.k rows (ext.getD d.inPort [])
    let res := unstream d.out 1 d.n rows (ext.getD (1 - d.inPort) [])
    let resRow (y : Nat) : Bytes := mapRow d.out 1 d.n res y
    if d.residual && d.out = 0xF && (List.range rows).any
        (fun y => (List.range d.n).any fun c => match Led.ofBytes (fitBytes 24 (((resRow y).drop (24 * c)).take 24)) with
          | none => true
          | some l => l.anchor ≠ (tileEntry im d.tileTab (c / max 1 d.tileCh)).anchor) then
      (.halted, s.cellHalt i .fabric 0)
    else
      let pre := (List.range rows).map fun y => drawRow d im wb (mapRow d.fmtA 1 d.k acts y) (resRow y)
      let held := (rows - d.rows) * rowBytes d.fmtA 1 d.k
      let s := s.setCan i.page (actBase + d.actArea) (acts.drop held)
      let s := s.countFor i.p i.page 0x4C 0x120 (d.arrayCycles rows)
      let s := s.profile i.p fun f => { f with gen := f.gen + d.arrayCycles rows }
      let s := s.countFor i.p i.page 0x50 0x124 (d.weightBytes / 64)
      let s := s.countFree i.p i.page 0x54 0x128
      let s := s.countFor i.p i.page 0x60 0x134 rows
      (.done, s.closeBatch d members pre)

end Sys2Proof.Machine
end

