-- ==== Sys2Proof/Machine/Focus.lean ====
section
/-! DEFINITION. Focus pipes: rows, cache entries, scores, the one-pass and two-pass sequences, the output close
(R117–R119, R122–R131, R134, R139). -/
namespace Sys2Proof.Machine

/-! ### The descriptor (R124) -/

/-- Row k of an up-projection of n rows.  An MX one has its blocks along the dimension that is reduced (R57): along RANK, but along
the rows where `down` says so, as a folded key projection is (R131); scale bytes follow the elements in block order. -/
def upRow (d : AttendDesc) (b : Bytes) (n k : Nat) (down : Bool) : List NumVal :=
  (List.range d.rank).map fun i =>
    let e := elemAt d.ufmt b (k * d.rank + i)
    if isMx d.ufmt then
      let at' := if down then k / 32 * d.rank + i else k * (d.rank / 32) + i / 32
      decodeScaled d.ufmt e (leAt b (ceilDiv (n * d.rank * fmtBits d.ufmt) 8 + at') 1)
    else decodeElem d.ufmt e

/-! ### Rows (R125) -/

structure ARow where
  pos : Nat
  ctx : Nat
  write : Bool
  draft : Bool
  query : Bytes
  /-- Latent and positional bytes of the new entry. -/
  entry : Bytes
  /-- Positions of later rows of its step that it never sees (R132). -/
  hide : List Nat := []
  deriving DecidableEq, Repr

def queryBytes (d : AttendDesc) : Nat := d.heads * (d.dh + d.dpos) * fmtBits d.w / 8
def latentBytes (d : AttendDesc) (cfmt : Nat) : Nat := d.rank * fmtBits (cfmt % 16) / 8
def ropeBytes (d : AttendDesc) (cfmt : Nat) : Nat := d.dpos * fmtBits (cfmt / 16) / 8

/-- The rows of an inbound stream, with fuel; `cf` gives a context's stored formats. -/
def parseRows (d : AttendDesc) (cf : Nat → Nat) (b : Bytes) (fuel : Nat) : List ARow :=
  match fuel with
  | 0 => []
  | f + 1 =>
    if b.length < 16 then []
    else
      let ctx := leAt b 4 4 % 2 ^ 20
      let w := (leAt b 8 1).testBit 0
      let n := 16 + queryBytes d
      let e := if w then latentBytes d (cf ctx) + ropeBytes d (cf ctx) else 0
      { pos := leAt b 0 4, ctx := ctx, write := w, draft := (leAt b 8 1).testBit 1, query := fitBytes (queryBytes d) (b.drop 16),
        entry := fitBytes e (b.drop n) } :: parseRows d cf (b.drop (n + e)) f

/-- Query elements of head h, and its positional elements. -/
def ARow.q (r : ARow) (d : AttendDesc) (h : Nat) : List NumVal :=
  (List.range d.dh).map fun k => decodeElem d.w (elemAt d.w r.query (h * d.dh + k))
def ARow.qr (r : ARow) (d : AttendDesc) (h : Nat) : List NumVal :=
  (List.range d.dpos).map fun k => decodeElem d.w (elemAt d.w r.query (d.heads * d.dh + h * d.dpos + k))

/-- May the row see an entry at position kp (R119)? -/
def ARow.sees (r : ARow) (d : AttendDesc) (kp : Nat) : Bool :=
  !r.hide.contains kp &&
  (match d.mask with
   | 0 => decide (kp ≤ r.pos)
   | 1 => decide (kp ≤ r.pos) && decide (r.pos < kp + d.window)
   | _ => true)

/-- The entries of later rows that each row never sees: all of them for a draft row, and for any row those of draft rows, so that every
row gives what it would give alone (R132, R113). -/
def hideLater (l : List ARow) : List ARow :=
  match l with
  | [] => []
  | r :: t => { r with hide := (t.filter fun x => x.ctx = r.ctx && (r.draft || x.draft)).map fun x => x.pos } :: hideLater t

/-! ### Entries -/

/-- A cache entry as the item sees it: its latent row and positional row, and its expanded keys and values by head. -/
structure Entry where
  pos : Nat
  lat : List NumVal
  rope : List NumVal
  keys : List (List NumVal) := []
  vals : List (List NumVal) := []
  deriving DecidableEq, Repr

/-- What closes report: output saturations and overflows. -/
structure Report where
  sat : Nat := 0
  ovf : List (Nat × Nat) := []
  deriving DecidableEq, Repr

def Report.add (a b : Report) : Report := { sat := a.sat + b.sat, ovf := a.ovf ++ b.ovf }

/-- A close's report, against a tile. -/
def Closed.report (c : Closed) (tile : Nat) : Report :=
  { sat := b2n c.sat, ovf := if c.win || c.prod then [(tile, b2n c.win + 2 * b2n c.prod)] else [] }

def reports (l : List Closed) (tile : Nat) : Report :=
  { sat := countIf (fun (c : Closed) => c.sat) l, ovf := l.flatMap fun c => (c.report tile).ovf }

/-- The expander's close, to the working format with RND 0 (R131). -/
def AttendDesc.expand (d : AttendDesc) (l : Led) : Closed :=
  l.close { mult := d.eMult, shift := d.eShift, rnd := 0, sat := d.sat, zp := 0, fmt := d.w }

/-- Rows k0 … of an up-projection against a vector, closed. -/
def expandVec (d : AttendDesc) (b : Bytes) (n k0 m : Nat) (v : List NumVal) : List Closed :=
  (List.range m).map fun k => d.expand (({ anchor := d.aE } : Led).dot (upRow d b n (k0 + k) false) v)

def codesOf (f : Nat) (l : List Closed) : List NumVal := l.map fun c => decodeElem f c.code

/-- An entry with its expanded keys and values, KEY mode (R131).  DESIGN CHOICE (log entry 93): the spec does not say whether these closes
to the working format, or those of the folded query, are output saturations; SAT_CNT counts none of them. -/
def Entry.grow (e : Entry) (d : AttendDesc) (uk uv : Bytes) (tile : Nat) : Entry × Report :=
  let ks := (List.range d.heads).map fun h => expandVec d uk (d.heads * d.dh) (h * d.dh) d.dh e.lat
  let vs := (List.range d.heads).map fun h => expandVec d uv (d.heads * d.dv) (h * d.dv) d.dv e.lat
  ({ e with keys := ks.map (codesOf d.w), vals := vs.map (codesOf d.w) },
    { sat := 0, ovf := (reports (ks.flatten ++ vs.flatten) tile).ovf })

/-! ### Scores (R126) -/

/-- The 65,536th power. -/
def pow65536 (c : Nat) : Nat := (List.range 16).foldl (fun x _ => x * x) c

/-- EXP2T(f) = floor(2^(16 + f / 65,536)): the integer whose 65,536th power is the largest not above 2^(2^20 + f). -/
def exp2t (f : Nat) : Nat :=
  (List.range 17).foldl (fun acc k =>
    let c := acc + 2 ^ (16 - k)
    if pow65536 c ≤ 2 ^ (1048576 + f) then c else acc) 0

/-- A closed score: none for a NaN row-head, else z in Q15.16. -/
structure Score where
  z : Option Int
  rep : Report
  deriving DecidableEq, Repr

def zMax : Int := 2147483647
def zMin : Int := -2147483648

def scoreClose (d : AttendDesc) (l : Led) (tile : Nat) : Score :=
  let (v, w, p) := l.value d.zMult d.zShift
  let ovf := if w || p then [(tile, b2n w + 2 * b2n p)] else []
  match v with
  | .nan => { z := none, rep := { ovf := ovf } }
  | .inf n => { z := some (if n then zMin else zMax), rep := { ovf := ovf } }
  | .fin m e =>
    let q := floorShift m (e + 16)
    let c := if zMax < q then zMax else if q < zMin then zMin else q
    { z := some c, rep := { sat := b2n (decide (c ≠ q)), ovf := ovf } }

/-- Score of an entry for a query (folded or not) and positional query. -/
def scoreOf (d : AttendDesc) (q qr : List NumVal) (key : List NumVal) (e : Entry) (tile : Nat) : Score :=
  scoreClose d ((({ anchor := d.aS } : Led).dot q key).dot qr e.rope) tile

/-! ### The sequences (R127–R130) -/

/-- One visible entry: z and its value vector. -/
structure Seen where
  z : Int
  val : List NumVal
  deriving DecidableEq, Repr

/-- Running maximum, denominator, numerators; rises, late rises and lossy rescales. -/
structure Soft where
  m : Option Int := none
  d : Int := 0
  n : List Led := []
  rises : Nat := 0
  late : Nat := 0
  lossy : Nat := 0
  deriving DecidableEq, Repr

def maxZ (l : List Seen) : Int := l.foldl (fun a e => max a (e.z / 65536)) (-32768)

/-- Add a block's terms at the maximum m. -/
def Soft.addTerms (a : Soft) (m : Int) (l : List Seen) : Soft :=
  l.foldl (fun a e =>
    let u : Int := (exp2t (e.z % 65536).toNat : Nat)
    let x := e.z / 65536 - m - 16
    { a with d := a.d + floorShift u (x + 80), n := (a.n.zip e.val).map fun p => p.1.addProduct (.fin u x) p.2 }) a

/-- One block, one-pass. -/
def Soft.block (a : Soft) (last : Bool) (l : List Seen) : Soft :=
  let mb := maxZ l
  match a.m with
  | none => { a with m := some mb }.addTerms mb l
  | some m =>
    if m < mb then
      let k := (mb - m).toNat
      let lossy : Bool := decide (a.d % ((2 ^ k : Nat) : Int) ≠ 0) || a.n.any fun (x : Led) => x.lossy k
      { a with m := some mb, d := a.d / ((2 ^ k : Nat) : Int), n := a.n.map (fun (x : Led) => x.rescale k), rises := a.rises + 1
               late := a.late + b2n last, lossy := a.lossy + b2n lossy }.addTerms mb l
    else a.addTerms m l

/-- Blocks in ascending FIRST_POS; only those with visible entries are given. -/
def onePass (a : Soft) (l : List (List Seen)) : Soft :=
  match l with
  | [] => a
  | [b] => a.block true b
  | b :: r => onePass (a.block false b) r

def twoPass (a : Soft) (l : List (List Seen)) : Soft :=
  match l with
  | [] => a
  | _ => let m := maxZ l.flatten; { a with m := some m }.addTerms m l.flatten

/-- The exact quotient of a numerator and D, to 64 bits and a sticky bit (R128). -/
def quotient (x : Int) (a : Int) (d : Int) : NumVal :=
  if x = 0 then .fin 0 0
  else
    let q := quot x.natAbs d.natAbs
    .fin (if x < 0 then -q.1 else q.1) (q.2 + a + 80)

/-- out_close of one element: code and report. -/
def outElem (d : AttendDesc) (fmt : Nat) (den : Int) (tile : Nat) (l : Led) : Nat × Report :=
  let (v, w, p) := l.value 1 0
  let v := match v with | .fin m _ => quotient m d.aV den | x => x
  let (c, s) := fitOut fmt d.rnd d.sat 0 v
  (c, { sat := b2n s, ovf := if w || p then [(tile, b2n w + 2 * b2n p)] else [] })

/-- What a row-head yields. -/
structure RowHead where
  codes : List Nat
  rep : Report := {}
  rises : Nat := 0
  late : Nat := 0
  lossy : Nat := 0
  empty : Bool := false
  deriving DecidableEq, Repr

/-- One row and head over the blocks' entries that it sees. -/
def rowHead (d : AttendDesc) (uk uv : Bytes) (r : ARow) (h tile : Nat) (blocks : List (List Entry)) : RowHead :=
  let q := r.q d h
  let qr := r.qr d h
  -- the query folded into latent space (R131)
  let fold := if d.fold then
      let rows := (List.range d.dh).map fun k => upRow d uk (d.heads * d.dh) (h * d.dh + k) true
      (List.range d.rank).map fun i => d.expand (({ anchor := d.aE } : Led).dot (rows.map fun x => x.getD i (.fin 0 0)) q)
    else []
  let q := if d.fold then codesOf d.w fold else q
  let foldRep : Report := { sat := 0, ovf := (reports fold tile).ovf }
  let vis := (blocks.map fun b => b.filter fun e => r.sees d e.pos).filter fun b => !b.isEmpty
  let scored := vis.map fun b => b.map fun e =>
    (scoreOf d q qr (if d.fold then e.lat else e.keys.getD h []) e tile, if d.fold then e.lat else e.vals.getD h [])
  let srep := (scored.flatten.map fun (x : Score × List NumVal) => x.1.rep).foldl Report.add {}
  let fmt := if d.fold then d.w else d.out
  let zero : Soft := { n := List.replicate d.wOut ({ anchor := d.aV } : Led) }
  let bad := scored.flatten.any fun (x : Score × List NumVal) => x.1.z.isNone
  let seen := scored.map fun b => b.map fun (x : Score × List NumVal) => ({ z := x.1.z.getD 0, val := x.2 } : Seen)
  let a := if bad then zero else if d.two then twoPass zero seen else onePass zero seen
  let outs := if bad then (List.range d.wOut).map (fun _ => let x := fitOut fmt d.rnd d.sat 0 .nan; (x.1, ({ sat := b2n x.2 } : Report)))
    else a.n.map (outElem d fmt a.d tile)
  if vis.isEmpty then { codes := List.replicate d.dv 0, rep := foldRep, empty := true }
  else
    let rep := (outs.map fun (x : Nat × Report) => x.2).foldl Report.add (foldRep.add srep)
    let codes := outs.map fun (x : Nat × Report) => x.1
    if d.fold then
      -- the quotient unfolded (R131)
      let y := codes.map (decodeElem d.w)
      let os := (List.range d.dv).map fun k =>
        (({ anchor := d.aU } : Led).dot (upRow d uv (d.heads * d.dv) (h * d.dv + k) false) y).close
          { mult := d.eMult, shift := d.eShift, rnd := d.rnd, sat := d.sat, zp := 0, fmt := d.out }
      { codes := os.map fun c => c.code, rep := rep.add (reports os tile), rises := a.rises, late := a.late, lossy := a.lossy }
    else { codes := codes, rep := rep, rises := a.rises, late := a.late, lossy := a.lossy }

/-! ### Cache accesses (R118, R122, R134) -/

inductive FocErr where
  | mismatch (addr : Nat)
  | cache (e : StoreErr) (addr : Nat)
  deriving DecidableEq, Repr

def State.focHalt (s : State) (i : Item) (e : FocErr) : State :=
  match e with
  | .mismatch a => s.pipeHalt i .mismatch a
  | .cache (.parity _) a => s.pipeHalt i .cache a
  | .cache _ _ => s.haltItem i codeBus

def State.cacheRd (s : State) (i : Item) (a n : Nat) : Except FocErr Bytes × State :=
  match s.load (s.cellUser i) a n with
  | (.error e, s) => (.error (.cache e (s.failAt i.p e)), s)
  | (.ok b, s) => (.ok b, s.countFor i.p i.page 0x6C 0x160 (granCount a n))

def State.cacheWr (s : State) (i : Item) (a : Nat) (b : Bytes) : Option FocErr × State :=
  if b.isEmpty then (none, s)
  else match s.store (s.cellUser i) a b with
    | (some e, s) => (some (.cache e (s.failAt i.p e)), s)
    | (none, s) => (none, s.countFor i.p i.page 0x70 0x164 (granCount a b.length))

/-- Does a block header name what the item expects (R134)? -/
def headerOk (h : Bytes) (ctx b : Nat) (d : AttendDesc) (cfmt : Nat) : Bool :=
  leAt h 0 4 = 64 * b && leAt h 4 4 = ctx && leAt h 8 2 = d.layer && leAt h 0x0A 2 = d.group && leAt h 0x0C 1 = cfmt
  && leAt h 0x0E 2 = d.rank && leAt h 0x10 1 = d.dpos

/-- The header of block b of pair j, checked. -/
def State.blockHeader (s : State) (i : Item) (d : AttendDesc) (c : Desc) (ctx b j : Nat) : Except FocErr Bytes × State :=
  let a := c.slotAt b j
  match s.cacheRd i a 64 with
  | (.error e, s) => (.error e, s)
  | (.ok h, s) => if headerOk h ctx b d c.cfmt then (.ok h, s) else (.error (.mismatch (s.msBase i.p + a)), s)

/-- Headers that an item holds, by context and block: each is read once, when the item first visits the block (R118). -/
abbrev Heads := List (Nat × Nat × Bytes)

def headOf (hs : Heads) (ctx b : Nat) : Option Bytes := (hs.find? fun x => x.1 = ctx && x.2.1 = b).map fun x => x.2.2
def setHead (hs : Heads) (ctx b : Nat) (h : Bytes) : Heads := (ctx, b, h) :: hs.filter fun x => !(x.1 = ctx && x.2.1 = b)

/-- Visit a block: its header is held, or read and held from now on. -/
def State.visitBlock (s : State) (i : Item) (d : AttendDesc) (ctx b j : Nat) (hs : Heads) : Except FocErr (Bytes × Heads) × State :=
  match headOf hs ctx b with
  | some h => (.ok (h, hs), s)
  | none => onExc (s.blockHeader i d (s.desc ctx) ctx b j) (fun e s => (.error e, s)) fun h s => (.ok (h, setHead hs ctx b h), s)

/-- A row's new entry: its data first, then COUNT, VALID and COMMIT, in the store and in the header that the item holds (R118). -/
def State.writeEntry (s : State) (i : Item) (d : AttendDesc) (j : Nat) (r : ARow) (hs : Heads) : Except FocErr Heads × State :=
  let c := s.desc r.ctx
  let b := r.pos / 64
  let e := r.pos % 64
  let a := c.slotAt b j
  onExc (s.visitBlock i d r.ctx b j hs) (fun x s => (.error x, s)) fun (hh : Bytes × Heads) s =>
    let h := hh.1
    let nl := latentBytes d c.cfmt
    onErr (s.cacheWr i (a + 64 + e * nl) (r.entry.take nl)) (fun x s => (.error x, s)) fun s =>
    onErr (s.cacheWr i (a + 64 + 64 * nl + e * ropeBytes d c.cfmt) (r.entry.drop nl)) (fun x s => (.error x, s)) fun s =>
      let v := leAt h 0x18 8 ||| 2 ^ e
      let m := leAt h 0x20 8
      let m := if r.draft then (if m.testBit e then m - 2 ^ e else m) else m ||| 2 ^ e
      let n := max (leAt h 0x0D 1) (e + 1)
      let h := h.take 0x0D ++ leBytes 1 n ++ (h.drop 0x0E).take 10 ++ leBytes 8 v ++ leBytes 8 m ++ h.drop 0x28
      onErr (s.cacheWr i a h) (fun x s => (.error x, s)) fun s => (.ok (setHead hh.2 r.ctx b h), s)

def State.writeEntries (s : State) (i : Item) (d : AttendDesc) (j : Nat) (l : List ARow) (hs : Heads) : Except FocErr Heads × State :=
  match l with
  | [] => (.ok hs, s)
  | r :: t => onExc (s.writeEntry i d j r hs) (fun e s => (.error e, s)) fun hs s => s.writeEntries i d j t hs

/-- Blocks of a context's list: those that its committed positions and the rows in flight reach (R152). -/
def State.blockCount (s : State) (i : Item) (ctx : Nat) : Nat :=
  let top := match s.runOf i.p ctx with
    | some r => maxNat (r.rows.map fun (x : Nat × Nat) => x.1 + 1)
    | none => 0
  ceilDiv (max (s.desc ctx).pos top) 64

/-- Entries of block b that some row of the group sees. -/
def State.readEntries (s : State) (i : Item) (d : AttendDesc) (c : Desc) (j b : Nat) (ks : List Nat) : Except FocErr (List Entry) × State :=
  match ks with
  | [] => (.ok [], s)
  | e :: r =>
    let a := c.slotAt b j
    let nl := latentBytes d c.cfmt
    let nr := ropeBytes d c.cfmt
    match s.cacheRd i (a + 64 + e * nl) nl with
    | (.error x, s) => (.error x, s)
    | (.ok lb, s) =>
      match if nr = 0 then (.ok [], s) else s.cacheRd i (a + 64 + 64 * nl + e * nr) nr with
      | (.error x, s) => (.error x, s)
      | (.ok rb, s) =>
        match s.readEntries i d c j b r with
        | (.error x, s) => (.error x, s)
        | (.ok l, s) =>
          (.ok ({ pos := 64 * b + e,
                  lat := (List.range d.rank).map fun k => decodeElem (c.cfmt % 16) (elemAt (c.cfmt % 16) lb k),
                  rope := (List.range d.dpos).map fun k => decodeElem (c.cfmt / 16) (elemAt (c.cfmt / 16) rb k) } :: l), s)

/-- The blocks that a row group visits, with the headers held after it.  R119's bound of 16,777,216 entries to a row names no effect: a
row beyond it sees them all (DESIGN CHOICE, log entry 93). -/
def State.readBlocks (s : State) (i : Item) (d : AttendDesc) (c : Desc) (ctx j : Nat) (rows : List ARow) (bs : List Nat) (hs : Heads) :
    Except FocErr (List (List Entry) × Heads) × State :=
  match bs with
  | [] => (.ok ([], hs), s)
  | b :: t =>
    onExc (s.visitBlock i d ctx b j hs) (fun x s => (.error x, s)) fun (hh : Bytes × Heads) s =>
      let ks := (List.range 64).filter fun e => (leAt hh.1 0x18 8).testBit e && rows.any fun r => r.sees d (64 * b + e)
      if ks.isEmpty then s.readBlocks i d c ctx j rows t hh.2
      else
        onExc (s.readEntries i d c j b ks) (fun x s => (.error x, s)) fun l s =>
        onExc (s.readBlocks i d c ctx j rows t hh.2) (fun x s => (.error x, s)) fun (ls : List (List Entry) × Heads) s =>
          (.ok (l :: ls.1, ls.2), s)

/-! ### The item -/

/-- Cut rows into row groups: up to RG rows, all of one context (R125). -/
def rowGroups (rg : Nat) (cur : List ARow) (l : List ARow) : List (List ARow) :=
  match l with
  | [] => if cur.isEmpty then [] else [cur.reverse]
  | r :: t =>
    match cur with
    | [] => rowGroups rg [r] t
    | c :: _ => if c.ctx = r.ctx && decide (cur.length < rg) then rowGroups rg (r :: cur) t
                else cur.reverse :: rowGroups rg [r] t

/-- Counts and outputs of a row group. -/
structure Group where
  out : List (List Nat)
  rep : Report
  heads : Nat
  blocks : Nat
  rises : Nat
  late : Nat
  lossy : Nat
  empty : Nat
  deriving DecidableEq, Repr

/-- Compute a row group; `row0` is the index of its first row in the item.  DESIGN CHOICE (log entry 93): an overflow in the expander's
close of an entry belongs to no row and head, and is reported at the group's first row times H. -/
def groupOf (d : AttendDesc) (uk uv : Bytes) (row0 : Nat) (rows : List ARow) (blocks : List (List Entry)) : Group :=
  let grown := if d.fold then blocks.map (fun b => b.map fun e => (e, ({} : Report)))
    else blocks.map fun b => b.map fun e => e.grow d uk uv (row0 * d.heads)
  let bs := grown.map fun b => b.map fun (x : Entry × Report) => x.1
  let erep := (grown.flatten.map fun (x : Entry × Report) => x.2).foldl Report.add {}
  let hs := (List.range rows.length).flatMap fun k =>
    match rows[k]? with
    | some r => (List.range d.heads).map fun h => rowHead d uk uv r h ((row0 + k) * d.heads + h) bs
    | none => []
  { out := hs.map (fun h => h.codes), rep := (hs.map fun h => h.rep).foldl Report.add erep, heads := hs.length
    blocks := blocks.length * (if d.two then 2 else 1)
    rises := sumNat (hs.map fun h => h.rises), late := sumNat (hs.map fun h => h.late), lossy := sumNat (hs.map fun h => h.lossy)
    empty := countIf (fun (h : RowHead) => h.empty) hs / max 1 d.heads }

/-- Count a group's figures (R139).  The spec states no figure for a focus pipe's ARITH cycles (R408): a free value. -/
def State.groupCounts (s : State) (i : Item) (g : Group) : State :=
  let (k, s) := s.draw
  let s := s.profile i.p fun f => { f with gen := f.gen + Config.freeNat k }
  let s := s.countFor i.p i.page 0x4C 0x140 g.heads
  let s := s.countFor i.p i.page 0x50 0x144 g.blocks
  let s := s.countFor i.p i.page 0x54 0x148 g.rises
  let s := s.countFor i.p i.page 0x58 0x14C g.late
  let s := s.countFor i.p i.page 0x5C 0x150 g.lossy
  let s := s.countFor i.p i.page 0x60 0x154 g.empty
  let s := s.countFor i.p i.page 0x68 0x15C g.rep.sat
  s.repeatRaise i.page 13 g.empty

/-- Row groups in turn: their output bytes and reports; `hs` are the headers that the item holds. -/
def State.runGroups (s : State) (i : Item) (d : AttendDesc) (uk uv : Bytes) (j row0 : Nat) (hs : Heads) (gs : List (List ARow)) :
    Except FocErr (Bytes × List (Nat × Nat)) × State :=
  match gs with
  | [] => (.ok ([], []), s)
  | g :: t =>
    let ctx := (g.head?.map fun r => r.ctx).getD 0
    onExc (s.readBlocks i d (s.desc ctx) ctx j g (List.range (s.blockCount i ctx)) hs) (fun x s => (.error x, s))
      fun (bs : List (List Entry) × Heads) s =>
        let o := groupOf d uk uv row0 g bs.1
        onExc ((s.groupCounts i o).runGroups i d uk uv j (row0 + g.length) bs.2 t) (fun x s => (.error x, s))
          fun (r : Bytes × List (Nat × Nat)) s => (.ok ((o.out.flatMap fun l => packElems d.out l) ++ r.1, o.rep.ovf ++ r.2), s)

/-- Overflowing tiles, each once. -/
def mergeOvf (l : List (Nat × Nat)) : List (Nat × Nat) :=
  l.foldl (fun acc (p : Nat × Nat) =>
    if acc.any fun (x : Nat × Nat) => x.1 = p.1 then acc.map fun (x : Nat × Nat) => if x.1 = p.1 then (x.1, x.2 ||| p.2) else x
    else acc ++ [p]) []

/-- Up-projections come from the reel unless the pipe holds them (R122, R123). -/
def State.loadUps (s : State) (i : Item) (r : Reel) (d : AttendDesc) : Except FocErr Unit × State :=
  let key := some (i.handle, i.p, d.layer, d.group)
  if (s.unit i.page).storeKey = key then (.ok (), s)
  else
    let nk := upBytes d (d.heads * d.dh)
    let nv := upBytes d (d.heads * d.dv)
    match s.load (s.cellUser i) (r.loadAddr + d.uk) nk with
    | (.error e, s) => (.error (.cache e (s.failAt i.p e)), s)
    | (.ok k, s) =>
      match s.load (s.cellUser i) (r.loadAddr + d.uv) nv with
      | (.error e, s) => (.error (.cache e (s.failAt i.p e)), s)
      | (.ok v, s) => (.ok (), s.modUnit i.page fun u => { u with storeKey := key, aux := msetMany memDefault [] 0 (k ++ v) })

/-- The work of an ATTEND item. -/
def State.runAttend (s : State) (i : Item) (r : Reel) (ext : List Bytes) : Work × State :=
  let d := attendDesc (descBytes r.image i.desc 64)
  match s.loadUps i r d with
  | (.error x, s) => (.halted, s.focHalt i x)
  | (.ok _, s) =>
    let nk := upBytes d (d.heads * d.dh)
    let uk := mgetMany memDefault (s.unit i.page).aux 0 nk
    let uv := mgetMany memDefault (s.unit i.page).aux nk (upBytes d (d.heads * d.dv))
    let j := (reelPairs r.image).findIdx fun a => a.layer = d.layer && a.group = d.group
    let b := ext.headD []
    let rows := hideLater (parseRows d (fun c => (s.desc c).cfmt) b (b.length / 16 + 1))
    onExc (s.writeEntries i d j (rows.filter fun x => x.write) []) (fun x s => (.halted, s.focHalt i x)) fun hs s =>
      let rg := 65536 / max 1 (d.heads * d.wOut)
      onExc (s.runGroups i d uk uv j 0 hs (rowGroups rg [] rows)) (fun x s => (.halted, s.focHalt i x))
        fun (o : Bytes × List (Nat × Nat)) s => (.done, (s.reportOvf i 0x64 0x158 (mergeOvf o.2)).setStream i.outKey o.1)

end Sys2Proof.Machine
end

