-- ==== Sys2Proof/Machine/Select.lean ====
section
/-! DEFINITION. The Cutter's items: which rows are judged, under which grammar state, and what a run learns (R151, R153, R160–R166, R435). -/
namespace Sys2Proof.Machine

/-- Configuration of a row's selection, from a context's parameters (R144). -/
def Desc.selCfg (d : Desc) (bitmap gram : Option Bytes) : SelCfg :=
  { temp := d.par 0 4, topP := d.par 4 4, topK := d.par 8 2, k0 := d.par 0x10 4, k1 := d.par 0x14 4, bitmap := bitmap,
    stop := d.stops, gram := gram }

/-- Words of a binary32 row. -/
def rowWords (b : Bytes) : List Nat := (List.range (b.length / 4)).map fun k => leAt b (4 * k) 4

/-- What the judged rows give: each pick with its grammar state after it and how the grammar ends there. -/
structure Judged where
  pick : Picked
  gstate : Nat
  gend : Nat
  deriving DecidableEq, Repr

/-- Judge rows in turn; before a draft row the grammar walks its draft, and a draft that is not allowed ends the judging (R164). -/
def judgeRows (c : SelCfg) (gst pos : Nat) (drafts : List Nat) (rows : List Bytes) : List Judged :=
  match rows with
  | [] => []
  | b :: t =>
    let p := select c gst pos (rowWords b)
    let (g, e) := match p.token, c.gram with
      | some tok, some gb => gramStep gb c.stop gst tok
      | _, _ => (gst, 0)
    let here : Judged := { pick := p, gstate := g, gend := e }
    match t, drafts with
    | [], _ => [here]
    | _, [] => [here]
    | _, x :: xs =>
      match c.gram with
      | none => here :: judgeRows c gst (pos + 1) xs t
      | some gb => if gramAllows gb c.stop gst x then here :: judgeRows c (gramStep gb c.stop gst x).1 (pos + 1) xs t else [here]

/-- The LOGITS item that a Cutter item judges: its predecessor in its own dispatch (R435). -/
def logitsPred (im : Bytes) (i : Item) : Option Nat :=
  ((sheetItem im i.idx).preds.find? fun q => decide (q < 0x8000) && (sheetItem im q).op = opLogits).map fun q => i.base + q

/-- Counters and events of the judged rows (R166). -/
def State.cutCounts (s : State) (i : Item) (gram : Bool) (l : List Judged) : State :=
  let nans := sumNat (l.map fun j => j.pick.nans)
  let none' := countIf (fun (j : Judged) => j.pick.token.isNone) l
  let s := s.countFor i.p pgCutter 0x48 0x170 l.length
  let s := s.countFor i.p pgCutter 0x4C 0x174 (countIf (fun (j : Judged) => j.pick.greedy) l)
  let s := s.countFor i.p pgCutter 0x58 0x180 nans
  let s := s.countFor i.p pgCutter 0x5C 0x184 none'
  let s := s.countFor i.p pgCutter 0x64 0x18C (if gram then l.length else 0)
  let s := if gram then s.countFree i.p pgCutter 0x60 0x188 else s
  let s := s.raiseIf (decide (0 < nans)) pgCutter 8
  s.repeatRaise pgCutter 9 none'

/-- Rows of a Cutter item's LOGITS item that it judges, with the position of the first: the last prefill row, or row 0 and the
drafts of a decode step (R112, R151, R153). -/
def judgedRows (run : Run) (chunk : Nat) (rows : List Bytes) : List Bytes × Nat :=
  if run.prefill then
    if run.req.arg0 = 0 || decide (256 * (chunk + 1) < run.rows.length) then ([], 0)
    else (rows.drop (rows.length - 1), (run.rows.getLastD (0, 0)).1 + 1)
  else (rows, (run.rows.headD (0, 0)).1 + 1)

/-- The work of a SELECT item. -/
def State.runSelect (s : State) (i : Item) (r : Reel) : Work × State :=
  match s.runOf i.p i.ctx, logitsPred r.image i with
  | some run, some id =>
    if i.cls ≠ 2 then (.done, s)
    else
      let d := s.desc i.ctx
      let (rows, pos) := judgedRows run (i.step - d.step) (mget (fun _ => []) s.units.logits id)
      if rows.isEmpty then (.done, s)
      else
        let v := (rows.headD []).length / 4
        let addr := d.par 0x18 8
        let gram := s.gramOf i.p d.grammar
        let read : Except StoreErr (Option Bytes) × State :=
          if addr = 0 then (.ok none, s)
          else match s.load (s.cellUser i) addr (ceilDiv v 8) with
            | (.ok b, s) => (.ok (some b), s)
            | (.error e, s) => (.error e, s)
        match read with
        | (.error e, s) =>
          let s := s.fault pgCutter 11 (s.failAt i.p e) (word i.idx)
          (.done, s.modRun i.p i.ctx fun r => { r with failed := true })
        | (.ok bm, s) =>
          let l := judgeRows (d.selCfg bm gram) d.gramState pos ((run.rows.drop 1).map fun (x : Nat × Nat) => x.2) rows
          let s := s.cutCounts i gram.isSome l
          (.done, s.modRun i.p i.ctx fun r => { r with
            sel := l.map (fun j => j.pick.token), gstates := l.map (fun j => j.gstate), gends := l.map (fun j => j.gend) })
  | _, _ => (.done, s)

end Sys2Proof.Machine
end

