-- ==== Sys2Proof/Machine/Mix.lean ====
section
/-! DEFINITION. Mixdowns (R64, R66, R136, R137, R305, R306, R324, R336), and the rows MIX_CONTRIBUTION and CLOSED_VALUES. -/
namespace Sys2Proof.Machine

/-! ### The descriptor (R136) -/

def MixDesc.members (d : MixDesc) : List Nat := (List.range 64).filter d.contrib.testBit

/-- Record k of a contribution. -/
def recAt (b : Bytes) (k : Nat) : Bytes := fitBytes 24 ((b.drop (24 * k)).take 24)

/-- First record of a contribution that is malformed or has a foreign anchor (R137). -/
def badRecord (im : Bytes) (d : MixDesc) (b : Bytes) : Option Nat :=
  if d.op = opMixGather then none
  else (List.range (d.tiles * d.tileLen)).find? fun k =>
    match Led.ofBytes (recAt b k) with
    | none => true
    | some l => l.anchor ≠ (tileEntry im d.tileTab (k / max 1 d.tileLen)).anchor

/-- First byte in which two contributions differ. -/
def firstDiff (a b : Bytes) : Nat :=
  ((List.range (max a.length b.length)).find? fun k => a[k]? ≠ b[k]?).getD 0

/-! ### Contributions taken -/

/-- The MIX item of an identity, where it is in the scoreboard. -/
def State.mixItem (s : State) (when item : Nat) : Option Item :=
  s.sched.items.find? fun i => isMixOp i.op && i.idx = item && i.when = when && i.open'

/-- Is the identity one of the loaded class A reel? -/
def State.mixOfA (s : State) (item : Nat) : Bool :=
  match s.classA with
  | some r => decide (item < sheetCount r.image) && isMixOp (sheetItem r.image item).op
  | none => false

/-- Has the mixdown of an identity ended long ago: 16 ticks back for class A, a recorded step for class B? -/
def State.mixPast (s : State) (when item : Nat) : Bool :=
  if s.mixOfA item then decide (when + 16 < s.clap.num)
  else (s.mixItem when item).isNone && decide (when / 2 ^ 20 < (s.desc (when % 2 ^ 20)).step)

/-- Contributions that no later copy can meet are forgotten. -/
def State.pruneMix (s : State) : State :=
  { s with units := { s.units with
      contribs := s.units.contribs.filter fun (c : Nat × Nat × Nat × Bytes) => !s.mixPast c.1 c.2.1
      mixBad := s.units.mixBad.filter fun (c : Nat × Nat) => !s.mixPast c.1 c.2 } }

def State.mixDup (s : State) : State := { s with units := { s.units with mixDup := s.units.mixDup + 1 } }

/-- The MIX item of a spoiled identity halts; its cell's fault latch, where it is free, takes the item index (R137, R255). -/
def State.mixHalt (s : State) (i : Item) : State :=
  if i.st = .halted then s
  else (s.modHdr i.page fun h => if bit h.evt evLatched then h else { h with finfo := word i.idx }).haltItem i codeMix

/-- MIX_CONFLICT (21, cause 3) or MIX_ANCHOR (22, cause 4) at a port, with its latches; the item halts, at once or when it comes
(R137, R306, R310). -/
def State.mixFault (s : State) (q ev cause when item member tile : Nat) : State :=
  let s := s.fault (pgPort q) ev when (portInfo cause member 0 4)
  let s := s.modPort q fun t => { t with mixItem := item, mixTile := tile }
  let s := { s with units := { s.units with mixBad := (when, item) :: s.units.mixBad } }
  match s.mixItem when item with
  | some i => s.mixHalt i
  | none => s

/-- A contribution held: (WHEN, item, member + 256 × port, records). -/
def State.contribOf (s : State) (when item member : Nat) : Option (Nat × Bytes) :=
  (s.units.contribs.find? fun (c : Nat × Nat × Nat × Bytes) => c.1 = when && c.2.1 = item && c.2.2.1 % 256 = member).map
    fun c => (c.2.2.1 / 256, c.2.2.2)

def State.keepContrib (s : State) (when item member q : Nat) (b : Bytes) : State :=
  { s with units := { s.units with contribs := s.units.contribs ++ [(when, item, member + 256 * q, b)] } }

/-- A member's contribution completes at the lead. -/
def State.takeContrib (s : State) (m : InBox) : State :=
  match s.contribOf m.msg m.item m.member with
  | some (_, b) =>
    if b = m.data then s.mixDup
    else
      let tl := match s.mixItem m.msg m.item with
        | some i => (match s.findReel i.p i.handle with | some r => (mixDesc (descBytes r.image i.desc 64)).tileBytes | none => 24)
        | none => 24
      s.mixFault m.port 21 3 m.msg m.item m.member (firstDiff b m.data / max 1 tl)
  | none =>
    if s.mixPast m.msg m.item then s.mixDup
    else
      let s := s.keepContrib m.msg m.item m.member m.port m.data
      match s.mixItem m.msg m.item with
      | none => s
      | some i =>
        match s.findReel i.p i.handle with
        | none => s
        | some r =>
          let d := mixDesc (descBytes r.image i.desc 64)
          match badRecord r.image d m.data with
          | some k => s.mixFault m.port 22 4 m.msg m.item m.member (k / max 1 d.tileLen)
          | none => s

def execMixContribution (port : Fin 8) (s : State) : Out :=
  let s := s.begin
  .next (match s.popInbox fun m => m.port = port.val && m.kind = 4 && m.conv = 0 && !m.closed with
    | none => s
    | some (m, s) => s.takeContrib m)

/-- Closed values wait for the member's item under member number 255. -/
def execClosedValues (port : Fin 8) (s : State) : Out :=
  let s := s.begin
  .next (match s.popInbox fun m => m.port = port.val && m.kind = 4 && m.closed with
    | none => s
    | some (m, s) =>
      match s.contribOf m.msg m.item 255 with
      | some _ => s.mixDup
      | none => s.keepContrib m.msg m.item 255 m.port m.data)

/-! ### The item -/

/-- Close one tile from the contributions of its members (R136). -/
def mixTile (im : Bytes) (d : MixDesc) (parts : List Bytes) (t : Nat) : List PreOut :=
  let e := tileEntry im d.tileTab t
  (List.range d.tileLen).map fun j =>
    let l := parts.foldl (fun (l : Led) b => match Led.ofBytes (recAt b (t * d.tileLen + j)) with | some q => l.join q | none => l)
      { anchor := e.anchor }
    preClose l e t 0 d.sat d.out

/-- Send closed values to every endpoint with an open contribution conversation to this module (R305, R324). -/
def State.sendClosed (s : State) (when item : Nat) (b : Bytes) : State :=
  let peers := ((s.links.convs.filter fun c => c.kind = 4 && c.conv = 0 && !c.initiator && c.st = .opn).map fun c => c.peer).eraseDups
  peers.foldl (fun s p => s.sendMsg 4 1 p
    { msg := when, item := item, member := s.memberIndex, closed := true, total := b.length, data := b }) s

/-- Where a mixdown's values go: to the cell that DEST names, or to the item's successors.  The group result stream carries the tick's
record and detections and nothing else (R307), so DEST 0x700 adds no message of its own. -/
def State.mixOut (s : State) (i : Item) (d : MixDesc) (b : Bytes) : State :=
  if d.dest < 0xE0 then
    let k := i.streamKey i.unit 0
    s.setStream k (s.streamOf k ++ b)
  else s.setStream i.outKey b

/-- A claiming double's contributions, kept for 16 ticks (R336). -/
def State.keepMix (s : State) (i : Item) (b : Bytes) : State :=
  { s with twin := { s.twin with
      keptMix := (s.twin.keptMix.filter fun (k : Nat × Nat × Bytes) => decide (s.clap.num ≤ k.1 + 16)) ++ [(i.when, i.idx, b)] } }

/-- The module's own ledger records: from its first inbound port. -/
def State.ownRecords (s : State) (i : Item) (r : Reel) (d : MixDesc) (ext : List Bytes) : Inbound × State :=
  let n := d.tiles * d.tileBytes
  if pageKind i.page = .prime then s.recv i r 0 n ext else (.got (fitBytes n (ext.headD [])), s)

/-- The lead's part: wait for every member, then add, close and deliver. -/
def State.mixLead (s : State) (i : Item) (r : Reel) (d : MixDesc) (own : Bytes) : Work × State :=
  let me := s.memberIndex
  let parts := d.members.map fun m => if m = me then some (0, own) else s.contribOf i.when i.idx m
  if parts.any fun x => x.isNone then (.wait, s)
  else
    let parts := parts.map fun x => x.getD (0, [])
    match (d.members.zip parts).find? fun (x : Nat × Nat × Bytes) => (badRecord r.image d x.2.2).isSome with
    | some x =>
      (.halted, s.mixFault x.2.1 22 4 i.when i.idx x.1 ((badRecord r.image d x.2.2).getD 0 / max 1 d.tileLen))
    | none =>
      let bs := parts.map fun (x : Nat × Bytes) => x.2
      let prime : Bool := pageKind i.page = .prime
      if d.op = opMixGather then
        let b := bs.flatten
        let s := s.mixOut i d b
        (.done, if d.dest = 0x701 && s.twin.drive then s.sendClosed i.when i.idx b else s)
      else
        let tiles := (List.range d.tiles).map fun t => mixTile r.image d bs t
        let closed := tiles.map fun l => closeRow d.out d.rnd d.sat d.tileLen l
        let b := closed.flatMap fun (x : Bytes × Nat) => x.1
        let s := s.countFor i.p i.page (if prime then 0x58 else 0x5C) (if prime then 0x10C else 0x130)
          (sumNat (closed.map fun (x : Bytes × Nat) => x.2))
        let s := s.reportOvf i (if prime then 0x54 else 0x58) (if prime then 0x108 else 0x12C) (overflows tiles.flatten)
        let s := s.mixOut i d b
        (.done, if d.dest = 0x701 && s.twin.drive then s.sendClosed i.when i.idx b else s)

/-- A member's part: send the contribution once, then wait for the closed values where they come back. -/
def State.mixMember (s : State) (i : Item) (d : MixDesc) (own : Bytes) : Work × State :=
  let mark := mget (fun _ => []) s.units.mixes i.id
  let s := if !mark.isEmpty then s
    else
      let s := { s with units := { s.units with mixes := mset (fun _ => []) s.units.mixes i.id [(0, own)] } }
      if s.twin.role = .double then s.keepMix i own else s.sendMix i.when i.idx own
  if d.dest ≠ 0x701 then (.done, s)
  else match s.contribOf i.when i.idx 255 with
    | some (_, b) => (.done, s.mixOut i d b)
    | none => (.wait, s)

/-- The work of a MIX item. -/
def State.runMix (s : State) (i : Item) (r : Reel) (ext : List Bytes) : Work × State :=
  let d := mixDesc (descBytes r.image i.desc 64)
  let held := mget (fun _ => []) s.units.mixes i.id
  let (own, s) := match held with
    | (_, b) :: _ => (Inbound.got b, s)
    | [] => s.ownRecords i r d ext
  match own with
  | .wait => (.wait, s)
  | .err e => (.halted, s.streamHalt i e)
  | .got b =>
    if s.leadPair && s.units.mixBad.contains (i.when, i.idx) then (.halted, s.mixHalt i)
    else if s.leadPair then
      let s := { s with units := { s.units with mixes := mset (fun _ => []) s.units.mixes i.id [(0, b)] } }
      s.mixLead i r d b
    else s.mixMember i d b

end Sys2Proof.Machine
end

