-- ==== Sys2Proof/Machine/Done.lean ====
section
/-! DEFINITION. The row ITEM_DONE: what a unit has worked out when its item completes (R48, R50, R109, R134, R393, R403). -/
namespace Sys2Proof.Machine

/-- The parity halt of the unit that an item runs on, when an injection acted (R403, R405). -/
def State.parityHalt (s : State) (i : Item) : State :=
  match pageKind i.page with
  | .prime | .draw => s.cellHalt i .can 0 true
  | .focus => s.pipeHalt i .store 0 true
  | .framing => s.framingHalt i (.parity 0) 0 true
  | _ => (s.parityFault i.page 12 0 (word i.idx) true).haltItem i codeParity true

/-- The work of a running item on its unit. -/
def State.runUnit (s : State) (i : Item) (r : Reel) (ext : List Bytes) : Work × State :=
  if isMixOp i.op then s.runMix i r ext
  else match pageKind i.page with
    | .prime => s.runPrime i r ext
    | .draw => s.runDraw i r ext
    | .focus => s.runAttend i r ext
    | .framing => s.runFrame i r
    | .cutter => s.runSelect i r
    | _ => (.done, s)

/-- A running item comes to its end: done, still waiting for bytes or members, or halted. -/
def State.itemDone (s : State) (i : Item) (ext : List Bytes) : State :=
  match s.findReel i.p i.handle with
  | none => s
  | some r =>
    match s.takeInject i.page with
    | (some j, s) => (s.parityHalt i).injectOutcome j.entry j.kind 1
    | (none, s) =>
      match s.runUnit i r ext with
      | (.done, s) => (s.batchOf i).foldl State.completeItem s
      | (.wait, s) => s.classALate i
      | (.halted, s) => s

/-- An item of a prime cell, draw cell, focus pipe, the Cutter or the Framing unit.  Splicer and Telecine items end with their
lists and pictures. -/
def execItemDone (id : Nat) (inp : ItemIn) (s : State) : Out :=
  let s := s.begin
  .next (match s.item id with
    | none => s
    | some i => if i.st = .running && decide (i.unit < 0x400) then s.itemDone i inp.streams else s)

end Sys2Proof.Machine
end

