-- ==== Sys2Proof/Machine/Host.lean ====
section
/-! DEFINITION. The die-to-die link, CXL.mem windows, back-invalidation and the admission exchange (R223–R246,
R349, R354–R356). -/
namespace Sys2Proof.Machine

/-! ### Link (R223–R226, R235–R237) -/

/-- Rate of one trained module: 1 16 GT/s, 2 32 GT/s. -/
def rateOf (m : Nat) : Nat := min m 2

/-- The seal derives the four stream keys of a training from its salts, and their invocation counters start at 1 (R236, R345). -/
def State.keyStreams (s : State) : State :=
  let key (stream dir : Nat) : Bytes := ideKey stream dir (leBytes 16 s.d2d.saltZ) (leBytes 16 s.d2d.saltD)
  { s with d2d := { s.d2d with ideKeys := [key 0 0, key 0 1, key 1 0, key 1 1], ideCount := [1, 1, 1, 1] } }

/-- The link is down: the stream keys end with the training (R345). -/
def State.linkOff (s : State) : State :=
  { s with d2d := { s.d2d with up := false, speed := 0, modUp := 0, ide := 0, ideKeys := [], ideCount := [] } }

def execLinkTraining (r : TrainResult) (s : State) : Out :=
  let s := s.begin
  .next (if !s.d2d.ready || !s.sec.rngOk || !s.pageOn pgD2d then s
    else
      let a := rateOf r.m0
      let b := rateOf r.m1
      if a = 0 ∧ b = 0 then
        let was := s.d2d.up
        s.linkOff.raiseIf was pgD2d 9
      else
        let speed := if a = 0 then b else if b = 0 then a else min a b
        let (n, s) := s.draw
        let s := { s with d2d := { s.d2d with
          up := true, speed := speed, modUp := b2n (a ≠ 0) + 2 * b2n (b ≠ 0), ide := 1, repaired := r.repaired,
          saltZ := Config.randomBits n % 2 ^ 128, saltD := r.saltD % 2 ^ 128 } }
        let s := s.keyStreams
        let s := s.emit (.saltExchange s.d2d.saltZ)
        let s := (s.count pgD2d 0x44 1).raise pgD2d 8
        (s.raiseIf (!(a = 2 && b = 2)) pgD2d 10).sendFreed)

/-- The link goes down as a failure (R225, R226). -/
def State.failLink (s : State) : State :=
  if s.d2d.up then s.linkOff.raise pgD2d 9 else s

def execFlitCrcError (failed : Bool) (s : State) : Out :=
  let s := s.begin
  .next (if !s.linkLive then s
    else
      let s := s.count pgD2d 0x48 1
      if failed then s.failLink else s.count pgD2d 0x4C 1)

def execIdeFail (s : State) : Out :=
  let s := s.begin
  .next (if !s.linkLive then s
    else (({ s with d2d := { s.d2d with ide := 2 } } : State).count pgD2d 0x50 1).raise pgD2d 11)

/-! ### Windows (R229–R234) -/

/-- BLK_FINFO of the D2D page. -/
def d2dInfo (dec cause : Nat) : Word := word (dec + cause * 16)

/-- The host programs and commits a decoder (R229). -/
def execHdmCommit (d : Fin 16) (base : Nat) (size : Nat) (s : State) : Out :=
  let s := s.begin
  let n := s.msChunks d.val
  .next (if !s.linkLive then s
    else if n ≠ 0 ∧ size = (n + 1) * chunk then
      { s with d2d := { s.d2d with decoders := mset (fun _ => none) s.d2d.decoders d.val (some base) } }
    else s.fault pgD2d 14 0 (d2dInfo d.val 6))

/-- An access that ends in WINDOW_ERR or CTX_WRITE. -/
def State.windowErr (s : State) (ev dec cause off : Nat) : State :=
  (s.count pgD2d 0x78 1).fault pgD2d ev off (d2dInfo dec cause)

/-- The data response of a read. -/
def State.cxlRead (s : State) (b : Bytes) (bad : Bool) : State := s.emit (.cxlData b bad)

def zeros (n : Nat) : Bytes := List.replicate n 0

/-- Lines that the host may now cache (R232). -/
def State.noteSnoop (s : State) (g : Nat) : State :=
  if s.d2d.snoop.contains g then s
  else
    let s := match s.d2d.snoop with
      | o :: r =>
        if 262144 ≤ s.d2d.snoop.length then
          let s := { s with d2d := { s.d2d with snoop := r, bisnp := s.d2d.bisnp ++ [(o, true)] } }
          (s.count pgD2d 0x80 1).emit (.bisnp o true)
        else s
      | [] => s
    { s with d2d := { s.d2d with snoop := s.d2d.snoop ++ [g] } }

/-- A CXL.mem access to partition space. -/
def State.cxlMain (s : State) (m : MemReq) : State :=
  let p := m.decoder.val
  let q : Requester := { p := p, unit := 0x7FF }
  if m.write then
    let d := m.data.take (64 - m.off % 64)
    match (if m.poison then s.storePoison q m.off d else s.store q m.off d) with
    | (some e, s) => if e.isRefused then s.windowErr 12 p 4 m.off else if m.poison then s.windowErr 12 p 5 m.off else s
    | (none, s) =>
      if m.poison then
        let pa := (s.msBase p + m.off) / 64 * 64
        let l := linkOf pa
        -- R176: the stage stores the granule poisoned and raises CRYPT_PARITY
        let s := (s.count (pgMag (l / 4)) 0x58 1).parityFault (pgMag (l / 4)) 11 pa (magInfo 4 l p 0x7FF)
        ((s.count pgD2d 0xA0 1).windowErr 12 p 5 m.off).emit .cxlDone
      else (s.count pgD2d 0xA0 1).emit .cxlDone
  else
    let a := m.off / 64 * 64
    match s.load q a 64 with
    | (.ok b, s) => ((s.count pgD2d 0x9C 1).noteSnoop ((s.msBase p + a) / 64)).cxlRead b false
    | (.error e, s) =>
      if e.isRefused then (s.windowErr 12 p 4 m.off).cxlRead (zeros 64) true
      else (if e.isParity then s.count pgD2d 0x9C 1 else s).cxlRead (if e.isParity then s.rawMain (e.pa / 64 * 64) 64 else zeros 64) true

/-- A CXL.mem access to the descriptor part: read-only (R230, R142). -/
def State.cxlDesc (s : State) (m : MemReq) (o : Nat) : State :=
  let p := m.decoder.val
  if m.write then s.windowErr 13 p 3 m.off
  else
    let i := s.ctxFirst p + o / 256
    let g := i * 4 + o % 256 / 64
    match s.readGran { p := p, unit := 0x7FF } g with
    | (none, s) => ((s.count pgD2d 0x9C 1).noteSnoop g).cxlRead (s.rawMain (g * 64) 64) false
    | (some e, s) =>
      if e.isRefused then (s.windowErr 12 p 4 m.off).cxlRead (zeros 64) true
      else (if e.isParity then s.count pgD2d 0x9C 1 else s).cxlRead (if e.isParity then s.rawMain (e.pa / 64 * 64) 64 else zeros 64) true

/-- A refused access: a read returns poisoned data, a write is dropped (R230). -/
def State.cxlRefuse (s : State) (m : MemReq) (cause : Nat) : State :=
  let s := s.windowErr 12 m.decoder.val cause m.off
  if m.write then s else s.cxlRead (zeros 64) true

def execCxlMemAccess (m : MemReq) (s : State) : Out :=
  let s := s.begin
  let p := m.decoder.val
  let n := s.msSize p
  .next (if !s.linkLive then s
    else if !s.windowOpen p then s.cxlRefuse m 1
    else if m.off < n then s.cxlMain m
    else if m.off < n + s.ctxCount p * 256 then s.cxlDesc m (m.off - n)
    else s.cxlRefuse m 2)

/-- Every H2D snoop is answered with RspIHitI (R233). -/
def execH2dSnoop (s : State) : Out :=
  let s := s.begin
  .next (if s.linkLive then s.emit .rspIHitI else s)

/-- The host answers the oldest back-invalidate of a granule (R232). -/
def execBackInvalidateResponse (granule : Nat) (s : State) : Out :=
  let s := s.begin
  .next (match s.d2d.bisnp.find? fun x => x.1 = granule with
    | some x => { s with d2d := { s.d2d with bisnp := s.d2d.bisnp.erase x } }
    | none => s)

/-! ### Attestation report (R354–R356) -/

/-- 16 bytes of partition q in LAYOUT. -/
def State.layoutOf (s : State) (q : Nat) : Bytes :=
  let pg := pgPart q
  let x := s.part q
  leBytes 4 (s.rdn pg 0x48) ++ leBytes 4 (s.rdn pg 0x4C) ++ leBytes 4 (s.rdn pg 0x54)
    ++ leBytes 4 (s.rdn pg 0x58 + b2n x.enabled * 2 ^ 21 + b2n x.bound * 2 ^ 22 + b2n x.scrubOk * 2 ^ 23)

/-- LOCK_MAP: bit n is OWNER_LOCK of page n. -/
def State.lockMap (s : State) : Bytes :=
  (List.range 128).map fun k =>
    BitVec.ofNat 8 ((List.range 8).foldl (fun a b => a + b2n ((s.hdr (8 * k + b)).lock) * 2 ^ b) 0)

/-- Insert a reel in ascending handle order. -/
def insReel (r : Reel) : List Reel → List Reel
  | [] => [r]
  | x :: l => if r.handle ≤ x.handle then r :: x :: l else x :: insReel r l

/-- Loaded reels of p that a report lists: until the slate at which the unload takes effect. -/
def State.reportReels (s : State) (p : Nat) : List Reel :=
  ((s.reelsOf p).filter fun r => !r.stopped).foldr insReel []

/-- One entry of an EXTENDED report. -/
def reelEntry (r : Reel) : Bytes :=
  leBytes 2 r.handle ++ leBytes 1 r.cls ++ leBytes 1 r.way ++ leBytes 2 r.groupSize ++ leBytes 2 0
  ++ leBytes 8 r.loadTick ++ fitBytes 64 r.reelDigest ++ fitBytes 64 r.programDigest
  ++ fitBytes 64 r.weightsDigest ++ fitBytes 64 r.signerDigest

def State.pinned (s : State) (p : Nat) : Bool := bit (s.rd pgSec0 0x54) p

def State.pinBytes (s : State) (p : Nat) : Bytes :=
  (List.range 16).flatMap fun k => leBytes 4 (s.rdn 0x00A (0x40 + 0x40 * p + 4 * k))

/-- REHEARSAL_ON (R405). -/
def State.rehearsalOn (s : State) : Bool :=
  s.reh.armed && (List.range 16).any fun e => decide (0 < s.entryLeft e)

/-- TWIN_FLAGS (R337). -/
def State.twinFlags (s : State) (p : Nat) : Nat :=
  let sends := s.twin.role = .principal && s.paired && (s.part p).bound && s.twin.bindMap.testBit p
  let holds := s.twin.images.any fun e => match e.2 with | some i => i.part = p | none => false
  b2n s.paired + 2 * b2n sends + 4 * b2n holds + 8 * roleNo s.twin.role

/-- Bytes 0x000 to the end of the body, as signed (R354). -/
def State.reportFor (s : State) (p : Nat) (nonce : Bytes) : Bytes :=
  let q := s.part p
  let ext := bit (s.fo pgSec0 0x50) p
  let reels := s.reportReels p
  let len := if ext then 8040 + 272 * reels.length else 8032
  let flags := b2n q.enabled + 2 * b2n q.bound + 4 * b2n q.exposed + 8 * b2n (s.sec.tapOpen || s.sec.consoleOpen)
    + 16 * b2n s.rehearsalOn + 32 * b2n (s.pinned p)
  let orders := b2n s.yieldOnGrave + 2 * b2n s.allowClaim + 4 * b2n s.shedUnderCap
  let head := leBytes 4 0x5452505A ++ leBytes 2 (if ext then 2 else 1) ++ leBytes 1 p ++ leBytes 1 flags
    ++ leBytes 4 len ++ leBytes 2 s.moduleId ++ leBytes 2 (s.boot.tray + s.boot.slot * 0x100) ++ fitBytes 64 nonce
    ++ leBytes 8 s.clap.num ++ leBytes 8 s.clap.sec ++ leBytes 4 0x0001A1B0 ++ leBytes 4 s.script.ver
    ++ leBytes 2 s.script.svn ++ leBytes 2 s.sec.svnFloor ++ leBytes 2 s.sec.counter ++ leBytes 2 q.t
    ++ leBytes 4 q.bindEpoch ++ leBytes 4 orders ++ leBytes 8 (if q.bound then q.domain else 0)
    ++ fitBytes 64 s.script.digest ++ ((List.range 64).map Config.fwKeyDigest)
    ++ leBytes 4 s.sec.fuseState ++ leBytes 4 Config.house ++ leBytes 4 s.sec.sessions ++ leBytes 4 s.debugFlags
    ++ leBytes 8 s.sec.lastDebug ++ leBytes 2 (if s.paired then s.partnerId else 0xFFFF)
    ++ leBytes 1 (s.twinFlags p) ++ leBytes 1 0 ++ leBytes 2 reels.length ++ leBytes 2 0
    ++ (if s.pinned p then s.pinBytes p else zeros 64)
    ++ (List.range 16).flatMap s.layoutOf ++ s.lockMap ++ certBytes 0 7296
  if ext then head ++ leBytes 4 reels.length ++ leBytes 4 0 ++ reels.flatMap reelEntry else head

/-- The whole report: body, signature, one to three zero bytes to a dword. -/
def signReport (body : Bytes) : Bytes :=
  let b := body ++ (List.range 4627).map (Config.mldsaSign body)
  b ++ zeros ((4 - b.length % 4) % 4)

/-! ### The mailbox (R238–R242, R349) -/

/-- The header or length is wrong: BAD_MSG. -/
def badMsg (m : DoeMsg) (msg len : Nat) : Bool :=
  m.msg ≠ msg || decide (16 ≤ m.part) || m.status ≠ 0 || m.payload.length ≠ len

/-- Answer BAD_MSG. -/
def State.doeBad (s : State) (m : DoeMsg) : State := s.doeAnswer (m.msg % 128 + 0x80) m.part 1 []

/-- A request reaches the mailbox only when it is idle and the link carries it. -/
def State.doeFree (s : State) : Bool := s.linkLive && s.d2d.doe.isNone

/-- Is p disabled, or under scrub (STATUS 2)? -/
def State.notEnabled (s : State) (p : Nat) : Bool := !(s.part p).enabled || (s.part p).heldForScrub

/-- The state that a report describes: the last slate's, or the present one while no slates are issued (R238, R354, R356). -/
def State.asShot (s : State) : State :=
  match s.shot with
  | some x =>
    if s.slatesOn then
      { s with reg := x.reg, clap := x.clap, sched := { s.sched with reels := x.reels }, parts := x.parts, sec := x.sec,
               twin := x.twin, reh := x.reh }
    else s
  | none => s

def execGetReport (inst : Nat) (m : DoeMsg) (s : State) : Out :=
  let s := s.begin.at inst
  .next (if !s.doeFree then s
    else if badMsg m 1 64 then s.doeBad m
    else if s.notEnabled m.part then s.doeAnswer 0x81 m.part 2 []
    else { s with d2d := { s.d2d with doe := some (m, inst)
                                      reportBody := some (m.part, m.payload, s.asShot.reportFor m.part m.payload) } })

def execReport (inst : Nat) (s : State) : Out :=
  let s := s.begin.at inst
  .next (match s.d2d.reportBody with
    | none => s
    | some (p, nonce, body) =>
      let s := s.modPart p fun q => { q with nonce := some (nonce, inst) }
      (s.count pgD2d 0x98 1).doeAnswer 0x81 p 0 (signReport body))

/-- STATUS of a BIND (R238, R349); the checks run in the order BAD_MSG, OPERATOR, then by code. -/
def State.bindStatus (s : State) (inst : Nat) (m : DoeMsg) : Nat :=
  let q := s.part m.part
  let fresh := match q.nonce with
    | some (n, t) => n == m.payload.drop 8 && decide (inst < t + 60 * tSec)
    | none => false
  let held := match q.lastDomain with
    | some d => q.t = q.bindT && d ≠ leAt m.payload 0 8
    | none => false
  if badMsg m 2 72 then 1
  else if m.part = 0 then 6
  else if s.notEnabled m.part then 2
  else if !fresh then 3
  -- a BIND whose mailbox request was aborted still waits for its slate (R242)
  else if q.bound || q.bindReq.isSome then 4
  else if held then 7
  else 0

/-- The binding takes effect (R238 step 5); BOUND answers the BIND unless it was aborted.  BIND_EPOCH never decreases (R239): at
its largest value it stays (DESIGN CHOICE, log entry 60). -/
def State.bindNow (s : State) (p domain : Nat) : State :=
  let s := s.modPart p fun q => { q with
    bound := true, domain := domain, bindEpoch := min (q.bindEpoch + 1) (2 ^ 32 - 1), bindT := q.t, bindReq := none }
  let s := s.raise (pgPart p) 12
  let s := match s.d2d.doe with
    | some (m, _) => if m.msg = 2 && m.part = p then s.doeAnswer 0x82 p 0 (leBytes 4 (s.part p).bindEpoch) else s
    | none => s
  s.sendFreed

def execBind (inst : Nat) (m : DoeMsg) (s : State) : Out :=
  let s := s.begin.at inst
  .next (if !s.doeFree then s
    else
      let st := s.bindStatus inst m
      if st = 1 then s.doeBad m
      else if st ≠ 0 then s.doeAnswer 0x82 m.part st []
      else
        let s := { s with d2d := { s.d2d with doe := some (m, inst) } }
        let d := leAt m.payload 0 8
        if s.slatesOn then s.modPart m.part fun q => { q with bindReq := some (d, s.clap.num) }
        else s.bindNow m.part d)

def execBound (p : Fin 16) (s : State) : Out :=
  let s := s.begin
  .next (match (s.part p.val).bindReq with
    | some (d, t) => if s.slatePassed t then s.bindNow p.val d else s
    | none => s)

/-- The window closes (R240); UNBOUND answers the UNBIND unless it was aborted. -/
def State.unbindNow (s : State) (p : Nat) : State :=
  let s := (s.endBinding p).modPart p fun q => { q with unbindReq := none }
  match s.d2d.doe with
  | some (m, _) => if m.msg = 3 && m.part = p then s.doeAnswer 0x83 p 0 [] else s
  | none => s

def execUnbind (m : DoeMsg) (s : State) : Out :=
  let s := s.begin
  let q := s.part m.part
  .next (if !s.doeFree then s
    else if badMsg m 3 8 then s.doeBad m
    else if m.part = 0 then s.doeAnswer 0x83 0 6 []
    else if !q.bound || q.domain ≠ leAt m.payload 0 8 then s.doeAnswer 0x83 m.part 5 []
    else
      let s := { s with d2d := { s.d2d with doe := some (m, s.now) } }
      if s.slatesOn then s.modPart m.part fun q => { q with unbindReq := some s.clap.num } else s.unbindNow m.part)

def execUnbound (p : Fin 16) (s : State) : Out :=
  let s := s.begin
  .next (match (s.part p.val).unbindReq with
    | some t => if s.slatePassed t then s.unbindNow p.val else s
    | none => s)

/-- Payload of STATE. -/
def State.statePayload (s : State) : Bytes :=
  let map (f : Part → Bool) : Nat := (List.range 16).foldl (fun a p => a + b2n (f (s.part p)) * 2 ^ p) 0
  leBytes 2 (map fun q => q.enabled) ++ leBytes 2 (map fun q => q.bound)
    ++ (List.range 16).flatMap fun p => leBytes 8 (if (s.part p).bound then (s.part p).domain else 0)

def execGetState (m : DoeMsg) (s : State) : Out :=
  let s := s.begin
  .next (if !s.doeFree then s
    else if badMsg m 4 0 then s.doeBad m
    else s.doeAnswer 0x84 m.part 0 s.statePayload)

/-- A DOE abort discards the request, an UNBIND that waits for its slate with it; an accepted BIND still takes effect (R242). -/
def execDoeAbort (s : State) : Out :=
  let s := s.begin
  let s := match s.d2d.doe with
    | some (m, _) => if m.msg = 3 && !s.closing m.part then s.modPart m.part fun q => { q with unbindReq := none } else s
    | none => s
  .next { s with d2d := { s.d2d with doe := none, reportBody := none } }

end Sys2Proof.Machine
end

