-- ==== Sys2Proof/Machine/Check.lean ====
section
/-! DEFINITION. What the loader computes from a reel image: the FORMAT rules (structure_ok), the claims of the header and the
call sheet (summary_matches), ports and footprints (R35, R36, R57, R63, R64, R71, R81–R88, R91–R93, R97, R99, R101, R105, R106,
R115, R116, R120, R124, R133, R136, R163, R165, R186, R187, R193, R196, R202, R204–R211, R215, R295, R322, R431–R435). -/
namespace Sys2Proof.Machine

/-! ### Ranges -/

def zeroAt (im : Bytes) (o n : Nat) : Bool := leAt im o n = 0

/-- Bytes that the signature covers: up to the first multiple of 64 at or after the last section (R350). -/
def signedLen (im : Bytes) : Nat :=
  roundUp ((List.range 8).foldl (fun a k => if secLen im k = 0 then a else max a (secOff im k + secLen im k)) 0x100) 64

/-- Does a table of n bytes at o lie in the signed image? -/
def inImage (im : Bytes) (o n : Nat) : Bool := decide (o + n ≤ signedLen im)

/-! ### Kinds of UNIT (R35, R83) -/

def isCellUnit (u : Nat) : Bool := decide (u < 0xE0)
def isDrawUnit (u : Nat) : Bool := between 0x100 u 0x11F
def isFocusUnit (u : Nat) : Bool := between 0x200 u 0x20F
def isSplUnit (u : Nat) : Bool := between 0x500 u 0x51F

/-! ### Tile tables (R85) -/

def tileOk (im : Bytes) (o : Nat) : Bool :=
  decide (leAt im o 2 < 4096) && zeroAt im (o + 3) 1 && decide (1 ≤ leAt im (o + 4) 4) && zeroAt im (o + 12) 4

def tilesOk (im : Bytes) (tab n : Nat) : Bool := inImage im tab (16 * n) && (List.range n).all fun k => tileOk im (tab + 16 * k)

/-! ### Prime cells (R57, R84, R86–R88, R92, R93, R431) -/

/-- Tiles of an operation's output (R85). -/
def PrimeDesc.tileCount (d : PrimeDesc) : Nat :=
  ceilDiv (d.tableRows * d.outW.toNat) (max 1 d.tilePix) * ceilDiv d.cOut (max 1 d.tileCh)

def emitOk (b : Bytes) (d : PrimeDesc) : Bool :=
  zeroAt b 2 2 && zeroAt b 0x0D 7 && zeroAt b 0x16 1 && zeroAt b 0x18 4 && zeroAt b 0x20 8 && zeroAt b 0x2A 2 && zeroAt b 0x2E 4
  && zeroAt b 0x36 10 && between 1 d.kh 15 && decide (d.flags < 2) && decide (d.outPort < 2) && d.cIn % max 1 d.kh = 0
  && decide (5 ≤ d.cIn / max 1 d.kh) && (!d.flags.testBit 0 || d.kh = 1) && !fIsNan d.tileTab

/-- Reductions of an MX operand start at multiples of 32 (R57). -/
def mxOk (d : PrimeDesc) : Bool :=
  (!isMx d.fmtIn || (d.kh * d.kw = 1 && d.groups = 1) || d.cg % 32 = 0)
  && (!(isMx d.fmtIn || isMx d.fmtW) || d.kPad / max 1 d.ksplit % 32 = 0)

def convOk (im : Bytes) (b : Bytes) (d : PrimeDesc) : Bool :=
  let pool : Bool := d.op = opPoolMax || d.op = opPoolAvg
  zeroAt b 0x1B 1 && zeroAt b 0x3A 6 && decide (d.fmtIn ≤ 0xB) && decide (d.fmtW ≤ 0xB) && decide (d.rnd ≤ 4)
  && between 1 d.kh 15 && between 1 d.kw 15 && decide (max (max d.padT d.padB) (max d.padL d.padR) ≤ 15)
  && decide (1 ≤ d.groups) && d.cIn % max 1 d.groups = 0 && d.cOut % max 1 d.groups = 0 && decide (1 ≤ d.ksplit)
  && decide (d.flags < 16) && decide (d.act ≤ 5) && decide (d.outPort ≤ 2) && d.tilePix % 32 = 0 && d.tileCh % 32 = 0
  && (d.op ≠ opMatmul || (d.kh = 1 && d.kw = 1 && d.sy = 1 && d.sx = 1 && d.dy = 1 && d.dx = 1))
  && (if d.halo then d.padB = 0 && d.inRows % max 1 d.sy = 0 && decide (d.padT ≤ (d.kh - 1) * d.dy) else decide (1 ≤ d.outH))
  && decide (1 ≤ d.outW)
  && (!pool || (d.cOut = d.cIn && d.groups = 1 && decide (max d.padT d.padB < d.kh) && decide (max d.padL d.padR < d.kw)))
  && (d.op ≠ opPoolMax || d.out = d.fmtIn)
  && (pool || (d.kPad % max 1 d.ksplit = 0 && mxOk d))
  && (d.op = opPoolMax || (decide (0 < d.tilePix) && decide (0 < d.tileCh) && tilesOk im d.tileTab d.tileCount))

/-- A prime cell's descriptor, MIX apart. -/
def primeOk (im : Bytes) (b : Bytes) : Bool :=
  let d := primeDesc b
  between 1 d.op 5 && between 1 d.inW 16384 && decide (1 ≤ d.inRows) && decide (1 ≤ d.cIn) && decide (1 ≤ d.cOut) && decide (d.inPort ≤ 2)
  && d.haloCan % 64 = 0 && d.inCan % 64 = 0 && d.outCan % 64 = 0
  && (d.inPort = 2 || d.inCan = 0) && (d.outPort = 2 || d.outCan = 0) && (d.halo || d.haloCan = 0)
  && (if d.op = opEmit then emitOk b d else convOk im b d)

/-! ### MIX, draw cells, focus pipes, Framing (R101, R105, R115, R120, R124, R136) -/

def mixOk (im : Bytes) (b : Bytes) : Bool :=
  let d := mixDesc b
  zeroAt b 3 1 && zeroAt b 0x18 40 && decide (d.rnd ≤ 4) && between 1 d.tileLen 4096 && tilesOk im d.tileTab d.tiles
  && (isCellUnit d.dest || isDrawUnit d.dest || isFocusUnit d.dest || d.dest = 0x300 || d.dest = 0x301 || isTeleUnit d.dest
      || isSplUnit d.dest || d.dest = 0x600 || d.dest = 0x700 || d.dest = 0x701)

def drawOk (im : Bytes) (b : Bytes) : Bool :=
  let d := drawDesc b
  (d.op = opStream || d.op = opLogits) && decide (d.fmtA ≤ 0xB) && decide (d.fmtW ≤ 0xB) && decide (d.rnd ≤ 4)
  && (d.op ≠ opLogits || d.out = 0xC) && between 1 d.k 65536 && between 1 d.n 262144 && between 1 d.rows 256 && decide (d.act ≤ 5)
  && decide (leAt b 0x0F 1 < 4) && decide (d.inPort < 2) && decide (d.outPort < 2) && decide (0 < d.tileCh) && d.tileCh % 32 = 0
  && d.actArea % 64 = 0 && zeroAt b 0x28 24 && inImage im d.weight d.weightBytes && (!d.bias || inImage im d.biasOff (4 * d.n))
  && tilesOk im d.tileTab (ceilDiv d.n (max 1 d.tileCh))

def attendOk (im : Bytes) (b : Bytes) : Bool :=
  let d := attendDesc b
  leAt b 0 2 = opAttend && decide (leAt b 2 1 < 16) && decide (d.mask < 3) && decide (leAt b 3 1 < 16)
  && (d.w = 2 || d.w = 3 || d.w = 0xA || d.w = 0xB) && between 1 d.heads 64 && zeroAt b 5 1 && between 32 d.rank 1024 && d.rank % 32 = 0
  && decide (d.dpos ≤ 128) && d.dpos % 16 = 0 && decide (leAt b 9 1 ≤ 0xB) && between 16 d.dh 256 && d.dh % 16 = 0
  && between 16 d.dv 256 && d.dv % 16 = 0 && (d.out = 2 || d.out = 3 || d.out = 0xA || d.out = 0xB || d.out = 0xC) && decide (d.rnd ≤ 4)
  && zeroAt b 0x13 1 && (d.mask ≠ 1 || between 1 d.window (2 ^ 24))
  && ([0x18, 0x1A, 0x1C, 0x1E].all fun o => decide (leAt b o 2 < 4096)) && (d.fold || zeroAt b 0x1E 2)
  && (!(d.fold && isMx d.ufmt) || d.dh % 32 = 0) && decide (1 ≤ d.eMult)
  && decide (1 ≤ d.zMult) && zeroAt b 0x26 2 && zeroAt b 0x34 12 && decide (d.heads * (d.dh + d.dv) * d.rank * 2 ≤ 4 * 1024 * 1024)
  && inImage im d.uk (upBytes d (d.heads * d.dh)) && inImage im d.uv (upBytes d (d.heads * d.dv))

/-- A FRAME table: 16 bytes of COUNT and zeros, then the entries. -/
def frameTable (im : Bytes) (o size : Nat) : Bool :=
  inImage im o 16 && zeroAt im (o + 4) 12 && inImage im o (16 + size * leAt im o 4)

/-- A value from 0 to 1. -/
def unitRange (w : Nat) : Bool := !fIsNan w && decide (0 ≤ fKey w) && decide (fKey w ≤ 0x3F800000)

/-- An EMIT item's candidates fit the tables of the FRAME item that they feed. -/
def emitFits (im : Bytes) (f : FrameDesc) (d : PrimeDesc) : Bool :=
  d.flags.testBit 0 == f.centre && decide (d.tilePix < leAt im f.originTab 4)
  && (f.centre || decide (d.kh * d.inW * d.inRows ≤ leAt im f.anchorTab 4))

def frameOk (im : Bytes) (e : SheetItem) (b : Bytes) : Bool :=
  let f := frameDesc b
  leAt b 0 2 = opFrame && decide (leAt b 2 1 < 8) && zeroAt b 3 1 && zeroAt b 0x32 2 && unitRange f.iouThr && between 1 f.preTopk 65536
  && between 1 f.maxDet 4096 && f.outArea % 64 = 0 && (f.centre || frameTable im f.anchorTab 16) && frameTable im f.originTab 8
  && (feeders im e.idx).all fun k => emitFits im f ((sheetItem im k).prime im)

/-! ### Telecine (R202, R204, R205, R208) -/

def teleOk (cls : Nat) (b : Bytes) : Bool :=
  let d := teleDesc b
  (d.op = opEncode || (d.op = opDecode && cls ≠ 1)) && decide (d.prof < 8) && decide (d.rc < 2)
  && decide (64 ≤ d.w) && d.w % 2 = 0 && between 64 d.h 8704 && d.h % 2 = 0 && between 1 d.split 8 && between 1 d.sliceRows 136
  && decide (d.qpI ≤ 51) && decide (d.qpP ≤ 51) && decide (d.qpMin ≤ d.qpMax) && decide (d.qpMax ≤ 51)
  && (d.rc ≠ 1 || (decide (1 ≤ d.targetBits) && decide (1 ≤ d.rcStep))) && between 1 d.pics 64
  && (if d.op = opEncode then between 1 d.refs 4 else d.refs = 0) && d.work % 4096 = 0 && d.ringLen % 4096 = 0 && decide (d.lag ≤ 1)
  && zeroAt b 0x37 9 && decide (d.w ≤ 16384 * d.split) && decide (d.tw ≤ 16384) && decide (d.px ≤ 35651584) && levelOk d

/-! ### Splicer (R186, R187) -/

/-- A descriptor's fields; only the first of a list carries the trigger. -/
def splFieldsOk (cls : Nat) (first : Bool) (d : SplDesc) : Bool :=
  d.op = 0x50 && d.trigHi = 0 && decide (d.trig < 3) && decide (d.srcBase < 3) && decide (d.dstBase < 3) && d.baseHi = 0
  && between 1 d.len 16777216
  && (if !first then d.trig = 0 && d.chainV = 0 && d.rep = 0 && d.offUs = 0 && d.perUs = 0
      else if d.trig = 1 then d.chainV = 0 && decide (1 ≤ d.rep) && between 1 d.perUs 20000
      else d.rep = 1 && d.offUs = 0 && d.perUs = 0 && (d.trig = 2 || d.chainV = 0))
  && (cls ≠ 1 || (d.srcBase = 0 && d.dstBase = 0))
  && !(d.srcBase = 0 && d.dstBase = 0 && rangesMeet d.src d.len d.dst d.len)

/-- A CHAIN that comes back to itself never ends in `fuel` steps. -/
def chainEnds (im : Bytes) (k fuel : Nat) : Bool :=
  match fuel with
  | 0 => false
  | fuel + 1 =>
    let d := splAt im k
    if d.trig ≠ 2 then true
    else match splOfChan im d.chainV with
      | some e => chainEnds im (splIndex im e.desc) fuel
      | none => true

/-- A Splicer item: its list ends inside the image, and its descriptors and trigger are right. -/
def splOk (im : Bytes) (cls pus : Nat) (e : SheetItem) : Bool :=
  let ks := splList im (splIndex im e.desc) 2049
  let ds := ks.map (splAt im)
  decide (ks.length ≤ 2048) && decide (ks.Nodup) && (ks.all fun k => inImage im (splBase im + 32 * k) 32) && (e.desc - splBase im) % 32 = 0
  && (match ds with
      | [] => false
      | d :: r =>
        splFieldsOk cls true d && r.all (splFieldsOk cls false)
        && (d.trig ≠ 2 || (decide (d.chainV < leAt im 0x29 1) && chainEnds im (splIndex im e.desc) 33))
        && (cls ≠ 1 || d.trig ≠ 1 || (d.offUs * 400 = e.start && decide (d.offUs + (d.rep - 1) * d.perUs < pus))))
  && (cls = 1 || (decide (ds.length ≤ 8) && decide (sumNat (ds.map (·.len)) ≤ 262144)))

/-! ### The cut list (R81–R83, R99, R433) -/

/-- A draw cell, a focus pipe or the Cutter: a class A cut list that names one is refused later, with CLASS_A_UNIT (R22). -/
def isGenUnit (u : Nat) : Bool := isDrawUnit u || isFocusUnit u || u = 0x300

def srcOk (cls n v u : Nat) : Bool :=
  u = 0x600 || u = 0xFFFF || (decide (u < n) && isCellUnit u && u ≠ v) || (cls = 1 && isGenUnit u)
def dstOk (cls n v u : Nat) : Bool :=
  (cls = 1 && isGenUnit u) || u = 0x600 || u = 0xFFFF || u = 0x301 || isTeleUnit u || (decide (u < n) && isCellUnit u && u ≠ v)

/-- Bases that a port's main-store stream may have. -/
def inBaseOk (cls b : Nat) : Bool := b ≠ 3 || cls ≠ 1
def outBaseOk (cls b : Nat) : Bool := b = 0 || (cls ≠ 1 && b ≠ 1)

def cutOk (im : Bytes) (cls v : Nat) : Bool :=
  let n := vcells im
  let c := cutRec im v
  let o := secOff im 1 + 64 * v
  c.vcell = v && decide (c.residency ≤ (if cls = 3 then 1 else 0)) && zeroAt im (o + 3) 1 && between 1 c.canPages 512
  && decide (c.csPages ≤ 64) && c.weightCan % 64 = 0 && decide (c.outFlags < 4) && zeroAt im (o + 0x21) 3 && zeroAt im (o + 0x3C) 4
  && inImage im c.weightSrc c.weightLen
  && (List.range 2).all fun k =>
      srcOk cls n v (c.src k) && dstOk cls n v (c.dst k)
      && (c.src k ≠ 0x600 || inBaseOk cls (c.mem k / 2 ^ 62)) && (c.dst k ≠ 0x600 || outBaseOk cls (c.mem k / 2 ^ 62))
      && (!c.packed k || c.dst k = 0xFFFF || isCellUnit (c.dst k) || (cls = 1 && isGenUnit (c.dst k)))

/-- Streams from cell v to cell w, by their sending ends and by their receiving ends. -/
def sentTo (im : Bytes) (v w : Nat) : Nat := countIf (fun k => (cutRec im v).dst k = w) (List.range 2)
def takenFrom (im : Bytes) (v w : Nat) : Nat := countIf (fun k => (cutRec im w).src k = v) (List.range 2)

def routesMatch (im : Bytes) : Bool :=
  (List.range (vcells im)).all fun v => (List.range (vcells im)).all fun w => sentTo im v w = takenFrom im v w

/-! ### The call sheet (R35, R36, R84, R101, R431, R435) -/

/-- The descriptor of an item has its OP and is right. -/
def descOk (im : Bytes) (cls pus : Nat) (e : SheetItem) : Bool :=
  let b := descBytes im e.desc 64
  if e.unit = 0x300 then e.op = 0x70 && e.desc = 0
  else
    leAt b 0 2 = e.op && inImage im e.desc (if isSplUnit e.unit then 32 else 64)
    && (if isCellUnit e.unit then decide (e.unit < vcells im) && (if isMixOp e.op then mixOk im b else primeOk im b)
        else if isDrawUnit e.unit then if isMixOp e.op then mixOk im b else drawOk im b
        else if isFocusUnit e.unit then attendOk im b
        else if e.unit = 0x301 then frameOk im e b
        else if isTeleUnit e.unit then teleOk cls b
        else if isSplUnit e.unit then splOk im cls pus e
        else false)

/-- EMIT leads to the Framing unit, and nothing else does. -/
def emitRoute (im : Bytes) (e : SheetItem) : Bool :=
  if !isCellUnit e.unit || isMixOp e.op then true
  else
    let d := e.prime im
    let toFrame : Bool := decide (d.outPort < 2) && (cutRec im e.unit).dst d.outPort = 0x301
    toFrame == (d.op = opEmit)

/-- A Cutter item's LOGITS item. -/
def logitsOf (im : Bytes) (e : SheetItem) : Option SheetItem :=
  match (e.preds.filter fun q => decide (q < 0x8000) && (sheetItem im q).op = opLogits && isDrawUnit (sheetItem im q).unit) with
  | [q] => some (sheetItem im q)
  | _ => none

def itemOk (im : Bytes) (cls pus : Nat) (e : SheetItem) : Bool :=
  e.rsvd = 0 && (cls = 1 || e.start = 0)
  && (e.preds.all fun q => decide (q % 0x8000 < sheetCount im) && (decide (q < 0x8000) || cls = 1))
  && descOk im cls pus e && emitRoute im e
  && (e.unit ≠ 0x300 || (logitsOf im e).isSome)
  && (!(e.op = opLogits && isDrawUnit e.unit) || (sheet im).any fun c => c.unit = 0x300 && c.preds.contains e.idx)

/-! ### The order graph (R83) -/

/-- Receiving port at cell w of the stream that leaves cell v by port k; two streams to one cell pair in port order. -/
def recvPort (im : Bytes) (v k w : Nat) : Nat :=
  let ports := (List.range 2).filter fun j => (cutRec im w).src j = v
  if k = 1 && (cutRec im v).dst 0 = w then ports.getD 1 0 else ports.headD 0

def readsPort (im : Bytes) (e : SheetItem) (k : Nat) : Bool := decide (0 < takeBytes im e k)

/-- Does item b read a stream or a can map that item a writes? -/
def feeds (im : Bytes) (a b : SheetItem) : Bool :=
  if !isCellUnit a.unit || isMixOp a.op then false
  else
    let d := a.prime im
    if d.outPort = 2 then
      b.unit = a.unit && !isMixOp b.op && (b.prime im).inPort = 2 && (b.prime im).inCan = d.outCan
    else
      let w := (cutRec im a.unit).dst d.outPort
      if w = 0x301 then b.unit = 0x301 && (feeders im b.idx).contains a.idx
      else if isTeleUnit w then b.unit = w && b.op = opEncode && (teleDesc (descBytes im b.desc 64)).staged
      else isCellUnit w && b.unit = w && readsPort im b (recvPort im a.unit d.outPort w)

/-- Items that must come before item b in its dispatch. -/
def before (im : Bytes) (b : SheetItem) : List Nat :=
  (b.preds.filter fun q => decide (q < 0x8000))
  ++ (((sheet im).filter fun a => feeds im a b && !b.preds.contains (a.idx + 0x8000)).map fun a => a.idx)

/-- Take out the items that wait for none of those left, until none can go. -/
def ordered (deps : List (Nat × List Nat)) (fuel : Nat) : Bool :=
  match fuel with
  | 0 => deps.isEmpty
  | fuel + 1 =>
    let left := deps.map fun (x : Nat × List Nat) => x.1
    let stuck := deps.filter fun (x : Nat × List Nat) => x.2.any left.contains
    if stuck.length = deps.length then deps.isEmpty else ordered stuck fuel

def acyclic (im : Bytes) : Bool :=
  ordered ((sheet im).map fun e => (e.idx, before im e)) (sheetCount im + 1)

/-! ### Terms and anchors (R63, R64) -/

/-- Insert an item by its START; the sheet's order stands among equals. -/
def insItem (l : List SheetItem) (x : SheetItem) : List SheetItem :=
  match l with
  | [] => [x]
  | y :: r => if x.start < y.start then x :: y :: r else y :: insItem r x

/-- Prime items whose ledger records arrive at inbound port k of a cell, in the order in which they run. -/
def partialsInto (im : Bytes) (v k : Nat) : List SheetItem :=
  ((sheet im).filter fun a => isCellUnit a.unit && !isMixOp a.op && (a.prime im).out = 0xF && decide ((a.prime im).outPort < 2)
    && (cutRec im a.unit).dst (a.prime im).outPort = v && recvPort im a.unit (a.prime im).outPort v = k).foldl insItem []

def SheetItem.draw (e : SheetItem) (im : Bytes) : DrawDesc := drawDesc (descBytes im e.desc 64)

/-- Draw items whose ledger records a draw item adds: predecessors that close to records (DEDUCED, log entry 94). -/
def drawPartials (im : Bytes) (e : SheetItem) : List SheetItem :=
  ((e.preds.filter fun q => decide (q < 0x8000)).map (sheetItem im)).filter fun a =>
    isDrawUnit a.unit && !isMixOp a.op && (a.draw im).out = 0xF

/-- Items of this module whose records an item combines with its own, or that a MIX item sends or adds (R64, R136). -/
def partialsOf (im : Bytes) (e : SheetItem) : List SheetItem :=
  if isMixOp e.op then if isCellUnit e.unit then partialsInto im e.unit 0 else drawPartials im e
  else if isCellUnit e.unit then
    let d := e.prime im
    if d.residual && d.out = 0xF then partialsInto im e.unit d.resPort else []
  else if isDrawUnit e.unit then
    let d := e.draw im
    if d.residual && d.out = 0xF then drawPartials im e else []
  else []

/-- Most terms of a ledger that an item closes or sends on: its own, and those of every partial combined into it.  A group's members run
reels of one shape, so each contributor to a MIX_SUM counts as this module does (R63; DEDUCED, log entry 94). -/
def termCount (im : Bytes) (e : SheetItem) (fuel : Nat) : Nat :=
  match fuel with
  | 0 => 2 ^ 33
  | fuel + 1 =>
    let from' := maxNat ((partialsOf im e).map fun a => termCount im a fuel)
    if e.op = opMixSum then countIf (mixDesc (descBytes im e.desc 64)).contrib.testBit (List.range 64) * from'
    else if isDrawUnit e.unit then
      let d := e.draw im
      d.k + b2n d.bias + (if d.residual && d.out ≠ 0xF then 1 else from')
    else
      let d := e.prime im
      (if d.op = opPoolAvg then d.kh * d.kw else d.k) + b2n d.bias + (if d.residual && d.out ≠ 0xF then 1 else from')

/-- Anchor of output element n, pixels in order and channels innermost. -/
def anchorAt (im : Bytes) (d : PrimeDesc) (n : Nat) : Int :=
  (tileEntry im d.tileTab (tileOf d (d.tableRows * d.outW.toNat) (n / max 1 d.cOut) (n % max 1 d.cOut))).anchor

/-- Anchors of the records that an item closes, sends or adds, in the order of its stream. -/
def anchorsOf (im : Bytes) (e : SheetItem) : List Int :=
  if isMixOp e.op then
    let m := mixDesc (descBytes im e.desc 64)
    (List.range (m.tiles * m.tileLen)).map fun n => (tileEntry im m.tileTab (n / max 1 m.tileLen)).anchor
  else if isDrawUnit e.unit then
    let d := e.draw im
    (List.range (d.rows * d.n)).map fun n => (tileEntry im d.tileTab (n % max 1 d.n / max 1 d.tileCh)).anchor
  else
    let d := e.prime im
    (List.range (d.tableRows * d.outW.toNat * d.cOut)).map (anchorAt im d)

/-- The anchors of partials that meet are equal, record by record of the stream that brings them (R64). -/
def anchorsAgree (im : Bytes) (e : SheetItem) : Bool :=
  e.op = opMixGather || ((anchorsOf im e).zip ((partialsOf im e).flatMap (anchorsOf im))).all fun x => x.1 = x.2

def ledgersOk (im : Bytes) : Bool :=
  (sheet im).all fun e => !(isCellUnit e.unit || isDrawUnit e.unit) || e.op = opMixGather || (!isMixOp e.op && isCellUnit e.unit
      && (e.op = opEmit || e.op = opPoolMax))
    || decide (termCount im e (sheetCount im + 1) ≤ 2 ^ 32)

/-! ### Tables of the constants section (R295, R322, R432) -/

def inConst (im : Bytes) (o n : Nat) : Bool := decide (constOff im ≤ o) && decide (o + n ≤ constOff im + constLen im)

/-- Do ranges (key, from, length) keep apart? -/
def apart (l : List (Nat × Nat × Nat)) : Bool :=
  match l with
  | [] => true
  | x :: r => (r.all fun (y : Nat × Nat × Nat) => !(x.1 = y.1 && rangesMeet x.2.1 x.2.2 y.2.1 y.2.2)) && apart r

def takeOk (im : Bytes) : Bool :=
  match takeTable im with
  | none => true
  | some t =>
    let o := constOff im
    inConst im o (0x20 + 16 * t.chans.length) && between 1 t.chans.length 256 && between 4 t.ringTicks 4096
    && decide (0 < t.tickBytes) && t.tickBytes % 4096 = 0 && t.ringOff % 4096 = 0 && zeroAt im (o + 0x0C) 4 && zeroAt im (o + 0x18) 8
    && ((List.range t.chans.length).all fun k => zeroAt im (o + 0x20 + 16 * k + 13) 3)
    && (t.chans.all fun c => between 1 c.bytes 16777216 && c.area % 64 = 0 && decide (c.area + c.bytes ≤ t.tickBytes))
    && decide ((t.chans.map (·.ch)).Nodup) && apart (t.chans.map fun c => (0, c.area, c.bytes))

/-- Halo areas of a reel: (virtual cell, offset, length) (R88). -/
def haloAreas (im : Bytes) : List (Nat × Nat × Nat) :=
  (sheet im).filterMap fun e =>
    if !isCellUnit e.unit || isMixOp e.op then none
    else
      let d := e.prime im
      if d.halo then some (e.unit, d.haloCan, (d.kh - 1) * d.dy * rowBytes d.fmtIn d.inW d.cIn) else none

def stateOk (im : Bytes) : Bool :=
  let o := stateOff im
  let as := stateAreas im
  inConst im o 16 && leAt im o 4 = stateMagic && zeroAt im (o + 6) 2 && zeroAt im (o + 12) 4 && decide (leAt im (o + 4) 2 ≤ 4096)
  && inConst im o (16 + 16 * as.length)
  && ((List.range as.length).all fun k => zeroAt im (o + 16 + 16 * k + 2) 2 && zeroAt im (o + 16 + 16 * k + 12) 4)
  && (as.all fun a => decide (a.vcell < vcells im) && a.off % 64 = 0 && a.len % 16 = 0
      && decide (a.off + a.len ≤ 4096 * (cutRec im a.vcell).canPages))
  && apart (as.map fun a => (a.vcell, a.off, a.len))
  && (haloAreas im).all fun (h : Nat × Nat × Nat) =>
      (rangeGaps ((as.filter fun a => a.vcell = h.1).foldl (fun l a => if a.len = 0 then l else rangeAdd l a.off a.len) []) h.2.1 (h.2.1 + h.2.2)).isEmpty

/-- CUE_HORIZON of output o. -/
def cueHorizon (im : Bytes) (o : Nat) : Nat := leAt im (0xC0 + 2 * o) 2

/-- CUE_EDGES of output o. -/
def cueEdgeCount (im : Bytes) (o : Nat) : Nat :=
  sumNat (((cueRules im).filter fun r => r.output = o).map fun r => if r.pulseNs = 0 then r.maxHits else 2 * r.maxHits)

def cueOk (im : Bytes) (pus : Nat) : Bool :=
  let o := cueOff im
  inConst im o 16 && leAt im o 4 = cueMagic && zeroAt im (o + 6) 10 && decide (leAt im (o + 4) 2 ≤ 16)
  && inConst im o (16 + 32 * leAt im (o + 4) 2)
  && ((cueRules im).all fun r =>
      decide (r.output < 8) && decide (r.level < 2) && decide (1 ≤ r.maxHits) && r.rsvd = 0 && decide (r.classLo ≤ r.classHi) && r.rsvd2 = 0
      && !fIsNan r.scoreMin && decide (0 < cueHorizon im r.output)
      && decide ((r.delayNs + 65535 * r.rowNs + r.pulseNs) / max 1 (pus * 1000) < cueHorizon im r.output))
  && (List.range 8).all fun o => decide (cueEdgeCount im o ≤ 255)

/-- The output area of a class A reel (R105). -/
def outAreaOk (im : Bytes) : Bool :=
  let slots := leAt im 0xD8 4
  let stride := leAt im 0xDC 4
  let frames := (sheet im).filter fun e => e.unit = 0x301
  decide (frames.length ≤ 1) && between 1 slots 65536 && outBase im % 64 = 0 && stride % 64 = 0 && decide (slots * stride < 2 ^ 32)
  && frames.all fun e => let f := frameDesc (descBytes im e.desc 64); decide (f.outArea + 32 * f.maxDet ≤ stride)

/-! ### Grammar reels (R163) -/

def grammarMagic : Nat := 0x4D415247

def isGrammar (im : Bytes) : Bool :=
  leAt im 6 1 = 2 && secLen im 0 = 0 && decide (36 ≤ constLen im) && leAt im (constOff im) 4 = grammarMagic

/-- Tokens of the vocabulary that both edges hold. -/
def edgesShare (g : Bytes) (a b : GEdge) : Bool := (List.range (gramVocab g)).any fun t => edgeHas g a t && edgeHas g b t

def pairwiseNot {α : Type} (f : α → α → Bool) (l : List α) : Bool :=
  match l with
  | [] => true
  | x :: r => r.all (fun y => !f x y) && pairwiseNot f r

def risingLo (l : List GEdge) : Bool :=
  match l with
  | a :: b :: r => decide (a.hi < b.lo) && risingLo (b :: r)
  | _ => true

def gramStateOk (g : Bytes) (st : Nat) : Bool :=
  let o := leAt g 0x18 4 + 8 * st
  let r := gramState g st
  let es := gramStateEdges g st
  decide (leAt g (o + 6) 1 < 2) && zeroAt g (o + 7) 1 && decide (r.first + r.count ≤ gramEdges g) && (decide (0 < r.count) || r.accept)
  && risingLo (es.filter fun e => e.kind = 0) && pairwiseNot (edgesShare g) es

def gramEdgeOk (g : Bytes) (e : Nat) : Bool :=
  let d := gramEdge g e
  zeroAt g (leAt g 0x1C 4 + 12 * e + 11) 1 && decide (d.next < gramStates g)
  && (if d.kind = 0 then decide (d.lo ≤ d.hi) && decide (d.hi < gramVocab g)
      else d.kind = 1 && decide (d.lo < gramSets g) && d.hi = 0)

def grammarOk (im : Bytes) : Bool :=
  let g := (im.drop (constOff im)).take (constLen im)
  leAt g 4 2 = 1 && decide (gramStart g < gramStates g) && between 1 (gramStates g) 65536 && between 1 (gramVocab g) 262144
  && decide (gramSets g ≤ 4096) && zeroAt g 0x24 28
  && decide (leAt g 0x18 4 + 8 * gramStates g ≤ g.length) && decide (leAt g 0x1C 4 + 12 * gramEdges g ≤ g.length)
  && decide (leAt g 0x20 4 + gramSets g * setSize (gramVocab g) ≤ g.length)
  && ((List.range (gramStates g)).all (gramStateOk g)) && (List.range (gramEdges g)).all (gramEdgeOk g)

/-! ### structure_ok -/

/-- The header's ranges and reserved fields, and what a class leaves 0 (R35). -/
def headerOk' (im : Bytes) : Bool :=
  let cls := leAt im 6 1
  between 1 cls 3 && decide (leAt im 7 1 ≤ 3) && between 1 (leAt im 0x0C 2) 64 && zeroAt im 0x2A 2 && zeroAt im 0xE0 32 && zeroAt im 0x80 64
  && secLen im 0 % 32 = 0 && secLen im 1 = 64 * vcells im
  && (cls = 1 || (zeroAt im 8 4 && zeroAt im 0x14 12 && zeroAt im 0x2C 16 && zeroAt im 0xC0 32))

/-- Pairs of one LAYER and GROUP agree in RANK and DPOS (R124). -/
def pairsAgree (im : Bytes) : Bool :=
  let as := reelAttends im
  as.all fun a => as.all fun b => a.key ≠ b.key || (a.rank = b.rank && a.dpos = b.dpos)

def structureOk (im : Bytes) (pus : Nat) : Bool :=
  let cls := leAt im 6 1
  headerOk' im
  && (if isGrammar im then zeroAt im 0x10 0x30 && grammarOk im
      else
        ((List.range (vcells im)).all (cutOk im cls)) && routesMatch im && ((sheet im).all (itemOk im cls pus)) && pairsAgree im
        && acyclic im && ledgersOk im && ((sheet im).all (anchorsAgree im))
        && (cls ≠ 1 || (takeOk im && stateOk im && cueOk im pus && outAreaOk im)))

/-! ### Cycles (R91, R92, R106, R116, R133, R165, R196, R209, R431) -/

def cellCycles (d : PrimeDesc) : Nat :=
  let px := d.tableRows * d.outW.toNat
  if d.op = opEmit then
    ceilDiv (d.inW * d.inRows * d.cIn) 64 + ceilDiv (d.cOut * lg2 d.cOut) 16 + ceilDiv d.cOut 6 + 4
  else if d.op = opConv || d.op = opMatmul then max (d.arrayCycles px) (ceilDiv (px * d.groups * d.pitch) 256) + 4
  else ceilDiv (px * d.cIn * d.kh * d.kw) 64 + 4

/-- K-segments of a 32-column weight tile (R116). -/
def DrawDesc.segs (d : DrawDesc) : Nat := ceilDiv (d.kPad * 32 * fmtBits d.fmtW / 8) 1572864

def drawCycles (d : DrawDesc) : Nat :=
  let rg := ceilDiv d.rows 32
  let nt := ceilDiv d.n 32
  let array := nt * rg * max (d.kPad / kcOf d.fmtA d.fmtW) 32
  let spill := if 1 < d.segs && 1 < rg then nt * d.segs * rg * 64 else 0
  max (array + spill) (ceilDiv d.weightBytes 192) + 4

/-- blk + pass1 of one full row group and one block (R125, R133). -/
def attendCycles (d : AttendDesc) : Nat :=
  let r := 65536 / max 1 (d.heads * d.wOut)
  let ds := (if d.fold then d.rank else d.dh) + d.dpos
  let score := ceilDiv (r * d.heads * 64 * ds) 1024
  let expo := ceilDiv (r * d.heads * 64) 32
  let value := ceilDiv (r * d.heads * 64 * d.wOut) 1024
  let expand := if d.fold then 0 else ceilDiv (64 * d.heads * (d.dh + d.dv) * d.rank) 1024
  let pass1 := if d.two then max score (if d.fold then 0 else ceilDiv (64 * d.heads * d.dh * d.rank) 1024) else 0
  max (max score expo) (max value expand) + pass1

/-- FRAMING_CAND: the sum of EMIT_MAX (R100). -/
def framingCand (im : Bytes) : Nat :=
  sumNat (((sheet im).filter fun e => isCellUnit e.unit && e.op = opEmit).map fun e => (e.prime im).cOut)

/-- Source granules read, whole granules written and narrow writes of a descriptor (R196). -/
structure SplCost where
  reads : Nat
  whole : Nat
  narrow : Nat
  deriving DecidableEq, Repr

def splCost (d : SplDesc) : SplCost :=
  let all := granCount d.dst d.len
  let whole := (d.dst + d.len) / 64 - ceilDiv d.dst 64
  { reads := granCount d.src d.len, whole := whole, narrow := all - whole }

/-- Descriptors that a class A item runs, over its firings. -/
def splRuns (im : Bytes) (e : SheetItem) : List SplCost :=
  (List.range (splFirings im (splIndex im e.desc) 33)).flatMap fun _ => (splOf im e).map splCost

def splCycles (im : Bytes) (e : SheetItem) : Nat :=
  ceilDiv (sumNat ((splRuns im e).map fun c => 256 + max c.reads (c.whole + c.narrow) + 256 * c.narrow)) 3 + 3416

/-- CYCLES that the loader computes; none for a MIX item and for a class B or C Splicer item, for which there is no rule. -/
def itemCycles (im : Bytes) (e : SheetItem) : Option Nat :=
  let b := descBytes im e.desc 64
  if isMixOp e.op then none
  else if isCellUnit e.unit then some (cellCycles (primeDesc b))
  else if isDrawUnit e.unit then some (drawCycles (drawDesc b))
  else if isFocusUnit e.unit then some (attendCycles (attendDesc b))
  else if e.unit = 0x300 then
    match logitsOf im e with
    | some l => let d := drawDesc (descBytes im l.desc 64); some (d.rows * (ceilDiv (ceilDiv d.n 32 + 384) 3 + 16))
    | none => none
  else if e.unit = 0x301 then
    let f := frameDesc b
    some (ceilDiv (frameFabric (framingCand im) f.preTopk f.maxDet) 3 + 64)
  else if isTeleUnit e.unit then some (teleDesc b).cycles
  else if leAt im 6 1 = 1 then some (splCycles im e)
  else none

/-! ### The header's claims (R35, R83, R105, R193, R210, R295, R322) -/

def teleItems (im : Bytes) : List (Nat × TeleDesc) :=
  ((sheet im).filter fun e => isTeleUnit e.unit).map fun e => (e.unit - 0x400, teleDesc (descBytes im e.desc 64))

/-- Source bytes of one picture, over its tiles. -/
def TeleDesc.srcBytes (d : TeleDesc) : Nat :=
  sumNat ((List.range d.split).map fun t => sumNat ((d.rows t 0).map fun (x : Nat × Nat) => x.2))

/-- Granules read and written for one item's pictures (R210). -/
def teleReads (d : TeleDesc) : Nat := d.pics * (ceilDiv d.srcBytes 64 + d.split * ceilDiv (d.refs * d.fr) 64)
def teleWrites (d : TeleDesc) : Nat := d.pics * d.split * (ceilDiv d.fr 64 + ceilDiv d.worst 64 + ceilDiv d.statLen 64)

def ofA (im : Bytes) (n : Nat) : Nat := if leAt im 6 1 = 1 then n else 0

def portList (im : Bytes) : List (Nat × Nat) := (List.range (vcells im)).flatMap fun v => [(v, 0), (v, 1)]

def claimRd (im : Bytes) : Nat :=
  sumNat ((portList im).map fun (x : Nat × Nat) =>
    if (cutRec im x.1).src x.2 = 0x600 then ceilDiv (sumNat ((itemsOfCell im x.1).map fun e => takeBytes im e x.2)) 64 else 0)
  + sumNat ((teleItems im).map fun (x : Nat × TeleDesc) => teleReads x.2)
  + sumNat ((splItems im).map fun e => sumNat ((splRuns im e).map fun c => c.reads + c.narrow))

def claimWr (im : Bytes) : Nat :=
  sumNat ((portList im).map fun (x : Nat × Nat) =>
    let c := cutRec im x.1
    if c.dst x.2 = 0x600 || isTeleUnit (c.dst x.2) then ceilDiv (c.outBytes x.2) 64 else 0)
  + (match takeTable im with | some t => sumNat (t.chans.map fun c => ceilDiv c.bytes 64) | none => 0)
  + sumNat (((sheet im).filter fun e => e.unit = 0x301).map fun e => ceilDiv (32 * (frameDesc (descBytes im e.desc 64)).maxDet) 64)
  + sumNat ((teleItems im).map fun (x : Nat × TeleDesc) => teleWrites x.2)
  + sumNat ((splItems im).map fun e => sumNat ((splRuns im e).map fun c => c.whole + c.narrow))

def cellShare (im : Bytes) (v : Nat) : Nat := sumNat ((itemsOfCell im v).map fun e => e.cycles)

def contBytesOf (im : Bytes) : Nat :=
  192 + sumNat ((stateAreas im).map (·.len)) + 384 * (match takeTable im with | some t => t.chans.length | none => 0)
  + 16 * sumNat ((List.range 8).map (cueEdgeCount im)) + 262144

def teleCtxOf (im : Bytes) : Nat := maxNat ((teleItems im).map fun (x : Nat × TeleDesc) => x.1 + x.2.split)

def summaryOk (im : Bytes) : Bool :=
  if isGrammar im then true
  else
    leAt im 0x10 4 = maxNat ((List.range (vcells im)).map (cellShare im))
    && leAt im 0x14 4 = ofA im (maxNat ((sheet im).map fun e => e.start + e.cycles))
    && leAt im 0x18 4 = ofA im (claimRd im) && leAt im 0x1C 4 = ofA im (claimWr im)
    && leAt im 0x20 4 = framingCand im
    && leAt im 0x24 4 = sumNat ((teleItems im).map fun (x : Nat × TeleDesc) => x.2.pics * x.2.split * x.2.px)
    && leAt im 0x28 1 = teleCtxOf im && leAt im 0x29 1 = maxNat ((splItems im).map fun e => e.unit - 0x500 + 1)
    && leAt im 0x2C 4 = ofA im (contBytesOf im)
    && ((List.range 8).all fun o => leAt im (0x30 + o) 1 = ofA im (cueEdgeCount im o))
    && leAt im 0x38 4 = ofA im (maxNat ((List.range 8).map (cueHorizon im))) && leAt im 0x3C 4 = sheetCount im
    && (sheet im).all fun e => match itemCycles im e with | some n => e.cycles = n | none => true

/-! ### Ports and footprints (R81, R82, R86, R97, R99, R115, R124, R215, R434) -/

/-- Items of cell v that use inbound port k, or outbound port k. -/
def inUsers (im : Bytes) (v k : Nat) : List SheetItem := (itemsOfCell im v).filter fun e => readsPort im e k
def outUsers (im : Bytes) (v k : Nat) : List SheetItem := (itemsOfCell im v).filter fun e => !isMixOp e.op && (e.prime im).outPort = k

/-- Span of a class A cell's users of a port. -/
def useSpan (l : List SheetItem) : Nat :=
  match l with
  | [] => 0
  | e :: r => maxNat (l.map fun e => e.start + e.cycles) - r.foldl (fun a e => min a e.start) e.start

/-- Does a port move n bytes for its users: 192 bytes a cycle over the span, or each item alone? -/
def portOk (cls : Nat) (users : List SheetItem) (n : Nat) : Bool :=
  if cls = 1 then decide (n ≤ 192 * useSpan users) else users.all fun e => decide (n ≤ 192 * e.cycles)

def wirePacked (c : CutRec) (k : Nat) : Nat :=
  let n := c.outBytes k
  if c.packed k then n + ceilDiv n 128 + 4 * ceilDiv n 4096 else n

/-- The weight stream of a class B or C cell has its port to itself, and every item of the cell leaves it the time (R81, R112). -/
def weightFits (im : Bytes) (v k : Nat) : Bool :=
  (inUsers im v k).isEmpty && (itemsOfCell im v).all fun e => decide ((cutRec im v).weightLen ≤ 192 * e.cycles)

def portsOk (im : Bytes) (cls : Nat) : Bool :=
  (portList im).all fun (x : Nat × Nat) =>
    let c := cutRec im x.1
    let w := c.dst x.2
    (w = 0xFFFF || portOk cls (outUsers im x.1 x.2) (wirePacked c x.2))
    && (!isCellUnit w || portOk cls (inUsers im w (recvPort im x.1 x.2 w)) (wirePacked c x.2))
    && (cls = 1 || weightPort c ≠ some x.2 || weightFits im x.1 x.2)
    && (c.src x.2 ≠ 0x600
        || (if cls = 1 then portOk 1 (inUsers im x.1 x.2) (sumNat ((itemsOfCell im x.1).map fun e => takeBytes im e x.2))
            else (inUsers im x.1 x.2).all fun e => decide (takeBytes im e x.2 ≤ 192 * e.cycles)))

/-- The footprint that the cell's descriptors need: weights, constants, halo areas and can maps where they lie, then the whole maps
under WHOLE residency, or the input band and the output staging (R82, R99). -/
def footOk (im : Bytes) (v : Nat) : Bool :=
  let c := cutRec im v
  let ds := ((itemsOfCell im v).filter fun e => !isMixOp e.op).map fun e => e.prime im
  let rest := maxNat (ds.map fun d => if c.residency = 1 then d.inMap + d.outMap else d.bandBytes + d.stageBytes)
  decide (canUsed im v + rest ≤ 4096 * c.canPages) && decide (maxNat (ds.map (·.sheetNeed)) ≤ 4096 * c.csPages)
  && ds.all fun d => !(d.op = opConv || d.op = opMatmul) || decide (32 ≤ d.halfRows)

def itemFits (im : Bytes) (e : SheetItem) : Bool :=
  let b := descBytes im e.desc 64
  if isDrawUnit e.unit && !isMixOp e.op then
    let d := drawDesc b
    decide (ceilDiv (d.rows * d.kPad * fmtBits d.fmtA) 8 + (if 1 < d.segs then ceilDiv d.rows 32 * 24576 else 0) ≤ 1048576)
  else if isFocusUnit e.unit then let d := attendDesc b; decide (d.heads * d.wOut ≤ 65536)
  else if isTeleUnit e.unit then let d := teleDesc b; d.op ≠ opEncode || decide (d.worst ≤ d.ringLen)
  else true

end Sys2Proof.Machine
end

