-- ==== Sys2Proof/Machine/Seal.lean ====
section
/-! DEFINITION. The seal: signatures (R350, R351), firmware images (R352, R353), the certificate (R355), debug access
(R358, R359) and the random bit generator (SEC0). -/
namespace Sys2Proof.Machine

/-! ### Signature blocks (R350) -/

def sigMagic : Nat := 0x4E474953
def sigLen : Nat := 7296

/-- Public key and signature of the block at offset `o`. -/
def sigKey (im : Bytes) (o : Nat) : Bytes := (im.drop (o + 0x40)).take 2592
def sigSig (im : Bytes) (o : Nat) : Bytes := (im.drop (o + 0xA60)).take 4627

/-- Are the block's fields and reserved bytes right? -/
def sigFormed (im : Bytes) (o : Nat) : Bool :=
  decide (o + sigLen ≤ im.length) && leAt im o 4 = sigMagic && leAt im (o + 4) 2 = 1 && leAt im (o + 6) 2 = 1
    && leAt im (o + 8) 8 = o && leAt im (o + 16) 48 = 0 && leAt im (o + 0x1C73) 13 = 0

/-- Does the block's signature verify?  Context 0 is "ZX9-REEL", 1 is "ZX9-FW". -/
def sigVerifies (ctx : Nat) (im : Bytes) (o : Nat) : Bool :=
  Config.mldsaVerify ctx (im.take o) (sigKey im o) (sigSig im o)

/-! ### Firmware (R351–R353) -/

def fwMagic : Nat := 0x5746585A

/-- The 64-byte header is well formed. -/
def fwHeader (im : Bytes) : Bool :=
  decide (64 ≤ im.length) && leAt im 0 4 = fwMagic && leAt im 4 4 = 1 && decide (leAt im 12 2 ≤ 63) && leAt im 14 50 = 0

/-- Offset of the signature block: the first multiple of 64 at which one names itself. -/
def fwBlock (im : Bytes) (o fuel : Nat) : Option Nat :=
  match fuel with
  | 0 => none
  | fuel + 1 =>
    if leAt im o 4 = sigMagic && leAt im (o + 8) 8 = o then some o else fwBlock im (o + 64) fuel

/-- FW_KEY_DIGEST of the fuses. -/
def fwKeyDigest : Bytes := (List.range 64).map Config.fwKeyDigest

/-- FW_RESULT of a staged image: 2 passed, 3 SIGNATURE, 4 FORMAT, 5 ROLLBACK, 6 BAD_ADDRESS. -/
def fwJudge (floor : Nat) (img : Option Bytes) : Nat :=
  match img with
  | none => 6
  | some im =>
    if !fwHeader im then 4
    else match fwBlock im 64 (im.length / 64) with
      | none => 3
      | some o =>
        if !sigFormed im o || sha3 (sigKey im o) ≠ fwKeyDigest || !sigVerifies 1 im o then 3
        else if leAt im 12 2 < floor then 5
        else 2

/-- The signed bytes of an image. -/
def fwSigned (im : Bytes) : Bytes := im.take ((fwBlock im 64 (im.length / 64)).getD 0)

/-- FW_CMD: the seal copies the staged image from partition 0's main store. -/
def State.fwCmd (s : State) (v : Word) : State :=
  if field v 0 2 = 0 then s
  else if s.sec.fwResult = 1 then s.refuse pgSec1
  else
    let a := s.rd64 pgSec1 0x40
    let n := s.rdn pgSec1 0x48 * 4096
    let (img, s) := if s.inSpace 0 a n then
        (match s.load { p := 0 } a n with
         | (.ok b, s) => (some b, s)
         | (.error _, s) => (none, s))
      else (none, s)
    { s with sec := { s.sec with fwResult := 1, fwInstall := bit v 1, staged := img, progress := 0 } }

def execVerify (s : State) : Out := .next (s.begin.gated pgSec1 0x4C 1 fun s w => s.fwCmd w)
def execInstall (s : State) : Out := .next (s.begin.gated pgSec1 0x4C 2 fun s w => s.fwCmd w)

/-- The verification ends. -/
def execFwVerified (s : State) : Out :=
  let s := s.begin
  .next (if s.sec.fwResult ≠ 1 || s.sec.writing then s
    else
      let r := fwJudge s.sec.svnFloor s.sec.staged
      let im := s.sec.staged.getD []
      let s := { s with sec := { s.sec with stagedVer := leAt im 8 4, stagedSvn := leAt im 12 2 } }
      if r ≠ 2 then
        ({ s with sec := { s.sec with fwResult := r, staged := none, fwInstall := false } } : State).raise pgSec1 9
      else if s.sec.fwInstall then
        ({ s with sec := { s.sec with writing := true, storeValid := false } } : State).raise pgSec1 8
      else ({ s with sec := { s.sec with fwResult := 2, staged := none } } : State).raise pgSec1 8)

/-- STORE_PROGRESS has grown; how far a write of at most 10 s has come at an instant is free (R352). -/
def State.storeMoves (s : State) (im : Bytes) : State :=
  let (k, s) := s.draw
  let most := ceilDiv im.length 4096 - s.sec.progress
  { s with sec := { s.sec with progress := s.sec.progress + Config.freeNat k % (most + 1) } }

/-- An install that is writing has moved on by this slate. -/
def State.storeAtSlate (s : State) : State := if s.sec.writing then s.storeMoves (s.sec.staged.getD []) else s

/-- The store write ends, read back or failed. -/
def execFwInstalled (ok : Bool) (s : State) : Out :=
  let s := s.begin
  .next (if !s.sec.writing then s
    else
      let im := s.sec.staged.getD []
      let s := { s with sec := { s.sec with writing := false, fwInstall := false, staged := none } }
      if ok then
        ({ s with sec := { s.sec with
            fwResult := 2, storeValid := true, storeVer := leAt im 8 4, storeSvn := leAt im 12 2,
            storeDigest := sha3 (fwSigned im), progress := ceilDiv im.length 4096 } } : State).raise pgSec1 10
      else ({ s.storeMoves im with sec := { (s.storeMoves im).sec with fwResult := 7 } } : State).raise pgSec1 11)

/-- SVN_COMMIT; in the recovery stage SEC1 accepts a staged image only (R351). -/
def State.svnCommit (s : State) (v : Word) : State :=
  if v.toNat ≠ 0x434D5453 || s.boot.stage = 8 then s.refuse pgSec1
  else ({ s with sec := { s.sec with svnFloor := max s.sec.svnFloor s.script.svn } } : State).raise pgSec1 12

def execSvnCommit (v : Word) (s : State) : Out := .next (s.begin.gated pgSec1 0x50 v fun s w => s.svnCommit w)

/-- CERT_DATA: the word, and CERT_SEL advances. -/
def execCertDataRead (s : State) : Out :=
  let (v, s) := s.begin.readReg 0x00B 0x44
  .next (s.emit (.readData (leBytes 4 v.toNat)))

/-! ### Debug (R358, R359) -/

def State.debugIsOpen (s : State) (w : DebugPath) : Bool :=
  match w with | .tap => s.sec.tapOpen | .console => s.sec.consoleOpen

/-- A session begins. -/
def State.openDebug (s : State) (w : DebugPath) : State :=
  if s.debugIsOpen w then s
  else
    let q := { s.sec with sessions := (s.sec.sessions + 1) % 2 ^ 32, lastDebug := s.clap.num }
    ({ s with sec := match w with | .tap => { q with tapOpen := true } | .console => { q with consoleOpen := true } } : State).raise
      pgSec0 11

def execDebugOpen (w : DebugPath) (s : State) : Out := .next (s.begin.openDebug w)

def execDebugClose (w : DebugPath) (s : State) : Out :=
  let s := s.begin
  .next (if !s.debugIsOpen w then s
    else ({ s with sec := match w with
      | .tap => { s.sec with tapOpen := false }
      | .console => { s.sec with consoleOpen := false } } : State).raise pgSec0 12)

/-- Is any tenant partition enabled? -/
def State.anyTenant (s : State) : Bool := (List.range 16).any fun p => decide (0 < p) && (s.part p).enabled

def execTapInstruction (i : TapIns) (s : State) : Out :=
  let s := s.begin
  .next (match i with
    | .bypass | .idcode => s
    | .pinTaking =>
      let s := s.openDebug .tap
      if s.boot.mrstLow then { s with sec := { s.sec with pinTaken := true } } else s.raise pgSec0 13
    | .haltCore =>
      let s := s.openDebug .tap
      { s with script := { s.script with coreHalted := true }, sec := { s.sec with coreHaltSeen := true } }
    | .resumeCore =>
      let s := s.openDebug .tap
      { s with script := { s.script with coreHalted := false } }
    | .readCore =>
      let s := s.openDebug .tap
      if s.anyTenant then s.emit (.readData (leBytes 4 0))
      else
        let (n, s) := s.draw
        s.emit (.readData (leBytes 4 (Config.freeNat n % 2 ^ 32)))
    | .scan => s.openDebug .tap)

/-- The pieces of [a, a + n), granule by granule: granule, first byte in it, and length. -/
def pieces (a n : Nat) : List (Nat × Nat × Nat) :=
  (List.range (granCount a n)).map fun k =>
    let g := a / 64 + k
    let lo := max a (g * 64)
    (g, lo - g * 64, min (a + n) (g * 64 + 64) - lo)

/-- Does debug access reach a main-store granule through the stage: partition 0's, or one of no owner outside the module area? -/
def State.clearMain (s : State) (pa : Nat) : Bool := s.ownerMain pa = some 0 || (s.ownerMain pa = none && !moduleArea pa)
def State.clearPark (s : State) (ppa : Nat) : Bool := s.ownerPark ppa = some 0 || s.ownerPark ppa = none

/-- Bytes of one piece with their parity: plaintext through the stage, or as the store holds them. -/
def nines (b : Bytes) (bad : Nat) (whole : Bool) (lo n : Nat) : List Nat :=
  (List.range n).map fun i => nineBits (b.getD (lo + i) 0) (if whole then bad ≠ 0 else bad.testBit (lo + i))

/-- A debug read's answer: bytes where every granule came through the stage clean, else bytes with parity. -/
def State.debugAnswer (s : State) (d : List Nat) (plain : Bool) : State :=
  if plain then s.emit (.readData (d.map fun x => BitVec.ofNat 8 x)) else s.emit (.readNine d)

/-- A debug read of the main store. -/
def State.debugReadMain (s : State) (l : List (Nat × Nat × Nat)) (d : List Nat) (plain : Bool) : State :=
  match l with
  | [] => s.debugAnswer d plain
  | (g, lo, n) :: r =>
    let bad := s.badMainAt g
    if s.clearMain (g * 64) then
      match s.serveRead { p := 0 } g with
      | (_, s) => s.debugReadMain r (d ++ nines (s.plainMain g) bad true lo n) (plain && bad = 0)
    else s.debugReadMain r (d ++ nines (s.storedMain g) bad false lo n) false

/-- A debug write: pieces through the stage, and others dropped. -/
def State.debugWriteMain (s : State) (l : List (Nat × Nat × Nat)) (d : Bytes) : State :=
  match l with
  | [] => s
  | (g, lo, n) :: r =>
    let s := if s.clearMain (g * 64) then
        let old := fitBytes 64 (s.plainMain g)
        onErr (s.serveWrite { p := 0 } (s.keyMainAt (g * 64)) (g * 64 + lo) (d.take n)) (fun _ s => s) fun s =>
          (s.pokeMain (g * 64) old).pokeMain (g * 64 + lo) (d.take n)
      else s
    s.debugWriteMain r (d.drop n)

def State.debugMain (s : State) (wr : Bool) (pa : Nat) (d : Bytes) : State :=
  let l := pieces pa d.length
  if mainSize < pa + d.length then s
  else if l.any fun x => !(s.ctl (linkOf (x.1 * 64) / 4)).up.testBit (linkOf (x.1 * 64) % 4) then s.emit .accessError
  else if wr then s.debugWriteMain l d
  else s.debugReadMain l [] true

/-- A debug read of the park tier. -/
def State.debugReadPark (s : State) (l : List (Nat × Nat × Nat)) (d : List Nat) (plain : Bool) : State :=
  match l with
  | [] => s.debugAnswer d plain
  | (g, lo, n) :: r =>
    let bad := s.badParkAt g
    let clear := s.clearPark (g * 64)
    let b := if clear then s.plainPark g else s.storedPark g
    (s.count pgPark 0x48 1).debugReadPark r (d ++ nines b bad clear lo n) (plain && clear && bad = 0)

/-- A debug write of the park tier, stripe by stripe; `n` bounds the stripes. -/
def State.debugWritePark (s : State) (ppa : Nat) (d : Bytes) (n : Nat) : State :=
  match n with
  | 0 => s
  | n + 1 =>
    let k := 512 - ppa % 512
    let s := if s.clearPark ppa then
        let old := (List.range 8).flatMap fun j => fitBytes 64 (s.plainPark (ppa / 512 * 8 + j))
        onErr (s.serveStripe 0 0 (s.keyParkAt ppa) ppa (d.take k)) (fun _ s => s) fun s =>
          (s.pokePark (ppa / 512 * 512) old).pokePark ppa (d.take k)
      else s
    s.debugWritePark (ppa + k) (d.drop k) n

def State.debugPark (s : State) (wr : Bool) (ppa : Nat) (d : Bytes) : State :=
  let l := pieces ppa d.length
  if parkSize < ppa + d.length then s
  else if l.any fun x => !(s.ctl 8).up.testBit (ifOf (x.1 * 64)) then s.emit .accessError
  else if wr then s.debugWritePark ppa d ((ppa % 512 + d.length + 511) / 512)
  else s.debugReadPark l [] true

/-- Where a debug access finds a unit's storage: the can or stream buffer at 0, the contact-sheet buffer or expander store at
16 MiB, the ledger sets at 32 MiB.  R358 gives no addresses (DESIGN CHOICE, log entry 61). -/
def auxAt : Nat := 2 ^ 24
def ledgerAt : Nat := 2 ^ 25
/-- Bytes of a ledger set. -/
def ledgerSet : Nat := 1024 * 24

/-- Storage of a unit: a tenant's data or residue is never shown; residue is zero-filled first. -/
def State.debugUnit (s : State) (wr : Bool) (pg off : Nat) (d : Bytes) : State :=
  let owned := decide (s.ownerOf pg ≠ 0)
  let residue := match (s.unit pg).residue with | some p => decide (p ≠ 0) | none => false
  let zeros := List.replicate d.length 0
  if owned then (if wr then s else s.emit (.readData zeros))
  else if residue then
    if wr then s
    else (s.modUnit pg fun u => { u with residue := none, can := [], aux := [], ledgers := [] }).emit (.readData zeros)
  else if wr then
    if off < ledgerAt then
      s.modUnit pg fun u =>
        if off < auxAt then { u with can := msetMany memDefault u.can off d } else { u with aux := msetMany memDefault u.aux (off - auxAt) d }
    else s.modUnit pg fun u =>
      let b := u.ledgers.flatten
      let b := b.take (off - ledgerAt) ++ d.take (b.length - (off - ledgerAt)) ++ b.drop (off - ledgerAt + d.length)
      { u with ledgers := [b.take ledgerSet, b.drop ledgerSet].filter fun x => !x.isEmpty }
  else
    let u := s.unit pg
    s.emit (.readData (if ledgerAt ≤ off then fitBytes d.length (u.ledgers.flatten.drop (off - ledgerAt))
      else if auxAt ≤ off then mgetMany memDefault u.aux (off - auxAt) d.length
      else mgetMany memDefault u.can off d.length))

/-- A debug access of an open session; `d` is the data written, or as many bytes as are read. -/
def execDebugMemoryAccess (write : Bool) (t : DebugTarget) (d : Bytes) (s : State) : Out :=
  let s := s.begin
  .next (if !(s.sec.tapOpen || s.sec.consoleOpen) then s
    else match t with
      | .mainStore pa => s.debugMain write pa d
      | .parkTier ppa => s.debugPark write ppa d
      | .unitStore pg off => s.debugUnit write pg.val off d)

/-! ### The random bit generator (SEC0 event 10) -/

def execRngFail (s : State) : Out :=
  let s := s.begin
  .next (if s.sec.rngOk then ({ s with sec := { s.sec with rngOk := false } } : State).raise pgSec0 10 else s)

/-- Requests for random output that waited proceed: port salts and reopening conversations. -/
def execRngOk (s : State) : Out :=
  let s := s.begin
  .next (if s.sec.rngOk || !s.sec.keysReady then s
    else
      let s := { s with sec := { s.sec with rngOk := true } }
      let s := (List.range 9).foldl (fun s q =>
        if (s.port q).opened && (s.port q).saltTx.isNone then (s.takeSalt q).announce q else s) s
      let w := s.links.waitEpoch
      w.foldl State.reopen { s with links := { s.links with waitEpoch := [] } })

end Sys2Proof.Machine
end

