-- ==== Sys2Proof/Machine/Loader.lean ====
section
/-! DEFINITION. Loading and unloading a reel: the check of R38, the mapping of units, and the rows REEL_LOAD_COMPLETE,
CLASS_A_REEL_START, REEL_UNLOAD_EFFECT and REEL_RESOURCES_FREE (R24, R27, R36–R41, R107, R187, R189, R204, R211, R350). -/
namespace Sys2Proof.Machine

/-! ### Reading the image and the cell map (R38, R40, R350) -/

/-- What the loader has read: nothing on a failed access, else the image with its signature block and the cell map.  An image whose
block does not lie in LEN0 × 4 KiB is read as its header only. -/
def State.readReel (s : State) (p : Nat) (r : Req) : Option (Bytes × Nat) × State :=
  let q : Requester := { p := p }
  let len := r.len0 * 4096
  match s.load q r.addr0 (min 256 len) with
  | (.error _, s) => (none, s)
  | (.ok h, s) =>
    let n := signedLen h + sigLen
    match s.load q r.addr0 (if len < n then min 256 len else n) with
    | (.error _, s) => (none, s)
    | (.ok im, s) =>
      if r.addr1 = 0 then (some (im, 2 ^ 256 - 1), s)
      else match s.load q r.addr1 32 with
        | (.error _, s) => (none, s)
        | (.ok m, s) => (some (im, leNat m), s)

/-- seal_verify (R350). -/
def State.sealVerify (s : State) (p : Nat) (im : Bytes) : Bool :=
  let o := signedLen im
  sigFormed im o && sigVerifies 0 im o && (!s.pinned p || sha3 (sigKey im o) = s.pinBytes p)

/-! ### Units that a reel may take (R24, R37, R189, R204) -/

/-- A prime cell that can be mapped: enabled, not fenced, held by no loaded reel. -/
def State.cellFree (s : State) (c : Nat) : Bool :=
  (s.hdr (pgPrime c)).enable && !s.fenced (pgPrime c) && !(s.sched.reels.any fun r => r.cells.contains c)

def State.mappable (s : State) (map : Nat) : List Nat := (List.range 224).filter fun c => s.cellFree c && map.testBit c

def State.freeCtxs (s : State) : List Nat := (List.range 64).filter fun c => (s.tctx c).mode = 0
def State.heldCtx (s : State) : Bool := match s.classA with | some r => !r.teleCtx.isEmpty | none => false
/-- Channels that no reel and no item holds, and those that no class A reel holds. -/
def State.freeChans (s : State) : List Nat := (List.range 32).filter fun c => !(s.chan c).classA && (s.chan c).item = 0
def State.chansNotA (s : State) : List Nat := (List.range 32).filter fun c => !(s.chan c).classA

def vcellsNeeded (rs : List Reel) : Nat := maxNat ((rs.filter fun r => r.cls ≠ 1).map fun r => vcells r.image)

/-- Entries of the Splicer's store in use. -/
def State.splUsed (s : State) : Nat := sumNat (s.sched.reels.map fun r => r.splCount)

/-- First index of n free entries in a row; 2,048 where the store has none (log entry 53). -/
def State.splPlace (s : State) (n : Nat) : Nat :=
  ((List.range (2049 - n)).find? fun k => s.sched.reels.all fun r => !rangesMeet k n r.splFirst r.splCount).getD 2048

/-- The lowest handle that no reel of the partition holds, and none held until this slate (R40). -/
def State.freeHandle (s : State) (p : Nat) : Option Nat :=
  ((List.range 1024).map (· + 1)).find? fun h => (s.findReel p h).isNone && !s.sched.spent.contains (p, h)

/-! ### Telecine gaps (R211) -/

/-- The longest gap between consecutive spans. -/
def innerGap (l : List (Nat × Nat)) : Nat :=
  match l with
  | a :: b :: r => max (b.1 - a.2) (innerGap (b :: r))
  | _ => 0

/-- GAP_MAX of a class A reel; the whole tick and more where it has no Telecine item. -/
def gapMaxOf (im : Bytes) (pus : Nat) : Nat :=
  let l := teleSpans im
  match l with
  | [] => 0xFFFFFFFF
  | a :: _ => max (innerGap l) (pus * 400 * 9 / 10 - maxNat (l.map fun x => x.2) + a.1)

/-- Longest single picture of a reel's Telecine items. -/
def picTime (im : Bytes) : Nat := maxNat ((teleItems im).map fun (x : Nat × TeleDesc) => x.2.picCycles)

/-! ### The admission check (R38) -/

def rsSignature : Nat := 0x10
def rsFormat : Nat := 0x11
def rsCapacity : Nat := 0x1F
def rsLateStart : Nat := 0x20

/-- Class A items that may not overlap share a lane (R38, R193, R204). -/
def laneOf (u : Nat) : Nat := if isTeleUnit u then 0x400 else if isSplUnit u then 0x500 else u

def orderOk (im : Bytes) : Bool :=
  (sheet im).all fun e =>
    decide (2000 ≤ e.start)
    && (e.preds.all fun q => decide (0x8000 ≤ q) || decide ((sheetItem im q).start + (sheetItem im q).cycles ≤ e.start))
    && (sheet im).all fun f => f.idx = e.idx || laneOf f.unit ≠ laneOf e.unit || !rangesMeet e.start e.cycles f.start f.cycles

/-- The class A part of the check: the first reason, 0 for none. -/
def State.checkA (s : State) (im : Bytes) (map : Nat) : Nat :=
  let pus := s.periodUs
  let pc := pus * 400
  let v := vcells im
  let cont := leAt im 0x2C 4
  let all := (s.mappable (2 ^ 256 - 1)).length
  firstReason [
    (s.classALoaded, 0x13),
    (leAt im 8 4 * 400 ≠ pc, 0x19),
    ((sheet im).any (fun e => isGenUnit e.unit)
      || (portList im).any (fun (x : Nat × Nat) => isGenUnit ((cutRec im x.1).src x.2) || isGenUnit ((cutRec im x.1).dst x.2)), 0x14),
    (decide ((s.mappable map).length < v) || decide (all - v < vcellsNeeded s.sched.reels), 0x15),
    (!orderOk im, 0x16),
    ((List.range v).any (fun c => decide ((pc - 2000) * 4 / 5 < cellShare im c)), 0x17),
    (decide (pc * 9 / 10 < leAt im 0x14 4 + 4000 + ceilDiv cont 48), 0x18),
    (decide (2048 * pus * 1000 / 4 < leAt im 0x18 4 * 64) || decide (1792 * pus * 1000 / 4 < leAt im 0x1C 4 * 64), 0x1A),
    (decide (65536 < leAt im 0x20 4) || decide (2100 * pus * 4 / 5 < leAt im 0x24 4) || decide (s.freeCtxs.length < leAt im 0x28 1)
      || decide (s.freeChans.length < leAt im 0x29 1)
      || decide (gapMaxOf im pus < maxNat ((s.sched.reels.filter fun r => r.cls ≠ 1).map fun r => picTime r.image)), 0x1B),
    (decide (2097152 * pus / 1000 < cont)
      || (List.range v).any (fun c => decide (262144 < sumNat (((stateAreas im).filter fun a => a.vcell = c).map (·.len)))), 0x1C),
    ((List.range 8).any (fun o => decide (1024 < leAt im (0x30 + o) 1 * cueHorizon im o)), 0x1D),
    (decide (8192 < leAt im 0x3C 4), 0x1E)]

/-- The class B and C part. -/
def State.checkBC (s : State) (im : Bytes) : Nat :=
  firstReason [
    (decide ((s.mappable (2 ^ 256 - 1)).length < vcells im), 0x15),
    (isGrammar im && decide (256 ≤ countIf (fun r => r.grammar) s.sched.reels), 0x5C),
    (decide (s.freeCtxs.length < leAt im 0x28 1) || decide (s.chansNotA.length < leAt im 0x29 1)
      || (s.heldCtx && decide (s.tele.gapMax < picTime im)), 0x1B)]

/-- addresses_ok (R105, R187, R205, R295, R433). -/
def State.addressesOk (s : State) (p : Nat) (im : Bytes) : Bool :=
  let cls := leAt im 6 1
  let space := s.inSpace p
  let tt := takeTable im
  (cls ≠ 1 || (space (outBase im) (leAt im 0xD8 4 * leAt im 0xDC 4)
      && (match tt with | some t => space t.ringOff (t.ringTicks * t.tickBytes) | none => true)))
  && ((memStreams im cls).all fun m =>
      if m.base = 0 then space m.off m.len
      else if m.base = 1 then inImage im m.off m.len
      else if m.base = 2 && cls = 1 then (match tt with | some t => decide (m.off + m.len ≤ t.tickBytes) | none => false)
      else true)
  && ((splItems im).all fun e => (splOf im e).all fun d =>
      (d.srcBase ≠ 0 || space d.src d.len) && (d.dstBase ≠ 0 || space d.dst d.len))
  && (teleItems im).all fun (x : Nat × TeleDesc) =>
      let d := x.2
      space d.work d.workLen
      && (if d.op = opDecode then space d.src (64 + d.ringLen)
          else d.staged || space d.src (d.pics * (d.pitch * (d.h + (if d.mono then 0 else d.h / 2)))))

/-- Main-store space that a reel keeps in its partition: its image, its output area and input ring, and the work areas of its
Telecine items (R38; log entry 54). -/
def reelSpace (im : Bytes) : Nat :=
  im.length + leAt im 0xD8 4 * leAt im 0xDC 4 + (match takeTable im with | some t => t.ringTicks * t.tickBytes | none => 0)
  + sumNat ((teleItems im).map fun (x : Nat × TeleDesc) => x.2.workLen)

/-- fits and free_handle (R40, R81, R82, R86, R99, R115, R124, R187, R215). -/
def State.fits (s : State) (p : Nat) (im : Bytes) : Bool :=
  portsOk im (leAt im 6 1) && ((List.range (vcells im)).all (footOk im)) && ((sheet im).all (itemFits im))
  && decide (s.splUsed + splEntries im ≤ 2048) && decide (s.splPlace (splEntries im) + splEntries im ≤ 2048)
  && decide (reelSpace im + sumNat ((s.reelsOf p).map fun r => reelSpace r.image) ≤ s.msSize p) && (s.freeHandle p).isSome

/-- check_reel: the first refusal reason, in the order written; 0 to load. -/
def State.loadCheck (s : State) (p : Nat) (r : Req) (im : Bytes) (map : Nat) : Nat :=
  let gs := s.groupSize
  if !s.sealVerify p im then rsSignature
  else if leAt im 0 4 ≠ 0x4C454552 || leAt im 4 2 ≠ 3 || !structureOk im s.periodUs || !summaryOk im || leAt im 6 1 ≠ r.cls then rsFormat
  else if leAt im 0x0C 2 ≠ gs || (decide (leAt im 7 1 = 0) != decide (gs = 1)) then 0x12
  else
    let n := if r.cls = 1 then s.checkA im map else s.checkBC im
    if n ≠ 0 then n
    else if !s.addressesOk p im then rsBadAddress
    else if !s.fits p im then rsCapacity
    else if r.tick ≠ 0 && decide (r.tick < s.clap.num) then rsLateStart
    else 0

/-! ### A reel that passes (R37, R40, R82, R110, R187, R189, R204, R211, R261) -/

/-- Class A weights go into the cell's can, which a tenant's residue leaves first (R82, R359). -/
def State.mapCell (s : State) (p h : Nat) (im : Bytes) (v c : Nat) : State :=
  let k := cutRec im v
  let pg := pgPrime c
  let clean : Bool := match (s.unit pg).residue with | some q => decide (q ≠ p) | none => false
  let s := s.modUnit pg fun u =>
    { u with
      can := msetMany memDefault (if clean then [] else u.can) k.weightCan ((im.drop k.weightSrc).take k.weightLen)
      aux := if clean then [] else u.aux
      vcell := v, holder := p, reel := h, residue := some p, canPages := k.canPages, csPages := k.csPages, halo := 0, halos := [] }
  let s := s.modHdr pg fun x => { x with owner := p }
  -- a fence written since the slate meets a loaded class A reel (R107)
  if bit (s.rd pg 0x40) 0 then (s.modUnit pg fun u => { u with fencePending := true }).raise pg 12 else s

def State.mapCells (s : State) (p h : Nat) (im : Bytes) (cells : List Nat) : State :=
  (List.range cells.length).foldl (fun s v => s.mapCell p h im v (cells.getD v 0)) s

/-- Class B and C items that stand on a cell which a class A reel takes move, whole, to one that it leaves free: the lowest that no
open item uses (R23, R37; log entry 92). -/
def State.moveItems (s : State) (c : Nat) : State :=
  let used (k : Nat) : Bool := s.sched.items.any fun i => i.page = pgPrime k && i.open'
  match (s.mappable (2 ^ 256 - 1)).find? fun k => !used k with
  | none => s
  | some k =>
    let move (i : Item) : Item :=
      if i.page = pgPrime c && i.cls ≠ 1 && (i.st = .waiting || i.st = .running) then { i with page := pgPrime k, st := .waiting } else i
    { s with sched := { s.sched with items := s.sched.items.map move } }

/-- Mode of virtual context v: that of the Telecine item which codes or decodes on it. -/
def ctxMode (im : Bytes) (v : Nat) : Nat :=
  if (teleItems im).any fun (x : Nat × TeleDesc) => x.2.op = opDecode && decide (x.1 ≤ v) && decide (v < x.1 + x.2.split) then 2 else 1

def State.mapCtxs (s : State) (p h : Nat) (clsA : Bool) (im : Bytes) (cs : List Nat) : State :=
  (List.range cs.length).foldl (fun s v =>
    let c := cs.getD v 0
    (s.modTctx c fun _ => { mode := ctxMode im v, classA := clsA, vctx := v, reel := h, part := p }).modHdr (pgTctx c) fun x =>
      { x with owner := p }) s

def State.mapChans (s : State) (p h : Nat) (cs : List Nat) : State :=
  (List.range cs.length).foldl (fun s v =>
    let c := cs.getD v 0
    (s.modChan c fun k => { k with classA := true, vch := v, reel := h, part := p }).modHdr (pgChan c) fun x => { x with owner := p }) s

/-- Copy the reel's Splicer descriptors into the store. -/
def State.copySpl (s : State) (im : Bytes) (first : Nat) : State :=
  (List.range (splEntries im)).foldl (fun s k =>
    { s with splicer := { s.splicer with
        store := mset (fun _ => []) s.splicer.store (first + k) (descBytes im (splBase im + 32 * k) 32) } }) s

/-- The reel is loaded under a handle. -/
def State.loadReel (s : State) (p : Nat) (r : Req) (im : Bytes) (map h : Nat) : State :=
  let a : Bool := r.cls = 1
  let o := signedLen im
  let cells := if a then (s.mappable map).take (vcells im) else []
  let ctxs := s.freeCtxs.take (leAt im 0x28 1)
  let chans := if a then s.freeChans.take (leAt im 0x29 1) else []
  let first := s.splPlace (splEntries im)
  let sec (k : Nat) : Bytes := (im.drop (secOff im k)).take (secLen im k)
  let reel : Reel :=
    { p := p, handle := h, cls := r.cls, way := leAt im 7 1, groupSize := leAt im 0x0C 2, grammar := isGrammar im, image := im
      cells := cells, teleCtx := ctxs, channels := chans, splFirst := first, splCount := splEntries im
      loadTick := if a then max s.clap.num r.tick else s.clap.num, loadAddr := r.addr0
      reelDigest := sha3 (im.take o), programDigest := sha3 (sec 0 ++ sec 1), weightsDigest := sha3 (sec 2 ++ sec 3)
      signerDigest := sha3 (sigKey im o) }
  let s := if a then s.raiseFor cells ctxs else s
  let s := (((s.mapCells p h im cells).mapCtxs p h a im ctxs).mapChans p h chans).copySpl im first
  let s := { s with sched := { s.sched with reels := s.sched.reels ++ [reel] } }
  let s := if a then { s with tele := { s.tele with gapMax := gapMaxOf im s.periodUs } } else s
  let s := cells.foldl State.moveItems s
  (if a then s.stepForReel else s).clearRecs

/-- The load ends with a handle or a reason. -/
def State.finishLoad (s : State) (l : Load) : State :=
  match s.readReel l.p l.req with
  | (none, s) => s.complete l.p rsReadFault l.slot l.req
  | (some (im, map), s) =>
    match s.loadCheck l.p l.req im map, s.freeHandle l.p with
    | 0, some h =>
      let s := s.loadReel l.p l.req im map h
      -- DATA holds T0 of a class A reel (R46)
      let t0 := match s.findReel l.p h with | some r => if r.cls = 1 then r.loadTick else 0 | none => 0
      (s.unreserve l.p).writeResult l.p { reqRec 3 0 l.slot { l.req with handle := h } with data := leBytes 8 t0 }
    | n, _ => s.complete l.p n l.slot l.req

def execReelLoadComplete (p : Fin 16) (slot : Nat) (s : State) : Out :=
  let s := s.begin
  .next (match s.sched.loads.find? fun l => l.p = p.val && l.slot = slot && decide (l.at' < s.clap.num) with
    | none => s
    | some l =>
      let s := { s with sched := { s.sched with loads := s.sched.loads.filter fun (x : Load) => !(x.p = l.p && x.slot = l.slot) } }
      s.finishLoad l)

/-! ### Start and end of a class A reel (R40, R41) -/

/-- Tick n begins for the class A reel: its inputs may arrive and its items will follow. -/
def State.openTick (s : State) (r : Reel) (n : Nat) : State :=
  if s.sched.ticks.any fun t => t.tick = n then s
  else { s with sched := { s.sched with ticks := s.sched.ticks ++ [{ tick := n, p := r.p, handle := r.handle }] } }

/-- Does the reel take tick n (R40, R41)? -/
def Reel.takes (r : Reel) (n : Nat) : Bool :=
  decide (r.loadTick ≤ n) && !r.stopped && (match r.unloadAt with | some u => decide (n < u) | none => true)

def execClassAReelStart (s : State) : Out :=
  let s := s.begin
  .next (match s.classA with
    | some r => if s.clap.num = r.loadTick && r.takes s.clap.num then s.openTick r s.clap.num else s
    | none => s)

def execReelUnloadEffect (p : Fin 16) (handle : Nat) (s : State) : Out :=
  let s := s.begin
  .next (match s.findReel p.val handle with
    | none => s
    | some r =>
      match r.unloadAt with
      | none => s
      | some u =>
        if r.stopped || decide (s.clap.num < u) then s
        else if r.cls = 1 then s.modReel p.val handle fun r => { r with stopped := true }
        else
          if s.reelInUse r then
            (s.modReel p.val handle fun r => { r with unloadAt := none, unloadReqs := [] }).completeUnloads p.val rsInUse r.unloadReqs
          else ((s.dropReel r).completeUnloads p.val 0 r.unloadReqs).gateNow)

def execReelResourcesFree (p : Fin 16) (handle : Nat) (s : State) : Out :=
  let s := s.begin
  .next (match s.findReel p.val handle with
    | none => s
    | some r =>
      match r.unloadAt with
      | none => s
      | some u =>
        if r.cls ≠ 1 || !r.stopped || decide (s.clap.num < u + 2) then s
        else
          let s := if r.cueFlush then s.dropCues else s
          let s := s.dropReel r
          (s.completeUnloads p.val 0 r.unloadReqs).gateNow)

end Sys2Proof.Machine
end

