-- ==== Sys2Proof/Machine/Pmbus.lean ====
section
/-! DEFINITION. The PMBus interface of the always-on monitor (R373, R375, R413, R419, R420). -/
namespace Sys2Proof.Machine

/-- LINEAR11 of num / den: the least exponent that lets the mantissa fit, rounded to nearest (log entry 20). -/
def linear11Loop (neg : Bool) (num den : Nat) (n : Int) (fuel : Nat) : Nat :=
  match fuel with
  | 0 => 0
  | f + 1 =>
    let a := if n < 0 then num * 2 ^ (-n).toNat else num
    let b := if 0 ≤ n then den * 2 ^ n.toNat else den
    let y := (2 * a + b) / (2 * b)
    if y ≤ 1023 then lowBits 11 (if neg then -(y : Int) else y) + lowBits 5 n * 2 ^ 11
    else linear11Loop neg num den (n + 1) f

def linear11 (num : Int) (den : Nat) : Nat := linear11Loop (decide (num < 0)) num.natAbs den (-16) 32

/-- Whole units of a LINEAR11 word, truncated (R420). -/
def linear11Whole (w : Nat) : Int :=
  let y := sext 11 w
  let n := sext 5 (w / 2 ^ 11)
  if 0 ≤ n then y * (2 ^ n.toNat : Nat) else y.tdiv ((2 ^ (-n).toNat : Nat) : Int)

/-- The interface answers from the end of stage 1 (R419). -/
def State.pmbusUp (s : State) : Bool := decide (2 ≤ s.boot.stage)

/-- Any transaction addressed to the module restarts the watchdog (R375). -/
def State.pmbusSeen (s : State) : State := s.modPower fun w => { w with pmbusSilent := false }

/-- A command of the interface: before the end of stage 1 no address is acknowledged (R419). -/
def State.pmbus (s : State) (f : State → State) : State :=
  let s := s.begin
  if s.pmbusUp then f s.pmbusSeen else s.emit .pmbusNak

def State.reply (s : State) (n v : Nat) : State := s.emit (.pmbus (leBytes n v))

/-- A block read opens with its byte count. -/
def State.replyBlock (s : State) (b : Bytes) : State := s.emit (.pmbus (leBytes 1 b.length ++ b))

def State.stInput (s : State) : Nat := s.power.stInput ||| b2n s.power.unmet
def State.stTemp (s : State) : Nat := s.power.stTemp ||| (if s.power.rungs.testBit 3 then 64 else 0)

/-- STATUS_WORD: INPUT, VIN_UV, TEMPERATURE, CML and NONE OF THE ABOVE, as PMBus places them (log entry 21). -/
def State.statusWord (s : State) : Nat :=
  b2n (s.stInput ≠ 0) * 2 ^ 13 + b2n (s.stInput.testBit 4) * 8 + b2n (s.stTemp ≠ 0) * 4
    + b2n (s.power.stCml ≠ 0) * 2 + b2n (s.stInput ≠ 0)

def State.cml (s : State) (b : Nat) : State := s.modPower fun w => { w with stCml := w.stCml ||| 2 ^ b }

/-- A GAFFER register write from the always-on monitor: it needs no path to BAR0, and meets the page as any write does (R373, R420). -/
def State.pmbusWrite (s : State) (off : Nat) (v : Word) (f : State → Word → State) : State :=
  match s.arrive pgGaffer off v with
  | (none, s) => s
  | (some w, s) => f s w

/-- An ENTER from PMBus; one that is not carried out sets STATUS_CML. -/
def State.pmbusEnter (s : State) : State :=
  match s.arrive pgGaffer 0x80 1 with
  | (none, s) => s.cml 6
  | (some _, s) =>
    match s.wrapEnter with
    | (true, s) => s
    | (false, s) => s.cml 6

def execOperation (write : Bool) (v : Byte) (s : State) : Out :=
  .next (s.pmbus fun s =>
    if !write then s.reply 1 (if s.power.wrap = 0 || s.power.wrap = 3 then 0x80 else 0)
    else if v = 0x80 then s.pmbusWrite 0x80 2 fun s _ => s.wrapWake
    else if v = 0x00 || v = 0x40 then s.pmbusEnter
    else s.cml 6)

/-- Bits whose cause goes on stay (R420). -/
def State.clearStatus (s : State) : State :=
  s.modPower fun w => { w with
    stInput := (if w.presentA && w.presentB then 0 else w.stInput &&& 16)
             ||| (if w.holdup then w.stInput &&& 8 else 0)
             ||| (if w.ocA || w.ocB then w.stInput &&& 4 else 0)
    stTemp := if w.tripped then w.stTemp else 0
    stCml := 0 }

def execClearFaults (s : State) : Out := .next (s.pmbus fun s => s.clearStatus)
def execCapability (s : State) : Out := .next (s.pmbus fun s => s.reply 1 0xB0)
def execStatusWord (s : State) : Out := .next (s.pmbus fun s => s.reply 2 s.statusWord)
def execStatusInput (s : State) : Out := .next (s.pmbus fun s => s.reply 1 s.stInput)
def execStatusTemperature (s : State) : Out := .next (s.pmbus fun s => s.reply 1 s.stTemp)
def execStatusCml (s : State) : Out := .next (s.pmbus fun s => s.reply 1 s.power.stCml)

/-- The higher feed voltage, kept in 10 mV units. -/
def execReadVin (s : State) : Out :=
  .next (s.pmbus fun s => s.reply 2 (linear11 (max s.power.meterA.volt s.power.meterB.volt : Nat) 100))

def execReadIin (s : State) : Out :=
  .next (s.pmbus fun s => s.reply 2 (linear11 (s.power.meterA.amp + s.power.meterB.amp : Nat) 100))

def execReadTemperature1 (s : State) : Out := .next (s.pmbus fun s => s.reply 2 (linear11 s.power.inlet 1))
def execReadTemperature2 (s : State) : Out := .next (s.pmbus fun s => s.reply 2 (linear11 s.power.outlet 1))
def execReadTemperature3 (s : State) : Out := .next (s.pmbus fun s => s.reply 2 (linear11 s.power.tj 1))
def execReadPin (s : State) : Out := .next (s.pmbus fun s => s.reply 2 (linear11 (s.power.pinMs : Nat) 1))
def execPmbusRevision (s : State) : Out := .next (s.pmbus fun s => s.reply 1 0x44)

/-- ASCII "FEREF". -/
def execMfrId (s : State) : Out := .next (s.pmbus fun s => s.replyBlock [0x46, 0x45, 0x52, 0x45, 0x46])

/-- ASCII "ZX9-450". -/
def execMfrModel (s : State) : Out :=
  .next (s.pmbus fun s => s.replyBlock [0x5A, 0x58, 0x39, 0x2D, 0x34, 0x35, 0x30])

def hexDigit (n : Nat) : Byte := BitVec.ofNat 8 (if n < 10 then 48 + n else 55 + n)

/-- SERIAL of IDENT_CERT, bytes 0x008 to 0x017, as upper-case hexadecimal. -/
def execMfrSerial (s : State) : Out :=
  .next (s.pmbus fun s => s.replyBlock
    ((certBytes 8 16).flatMap fun b => [hexDigit (b.toNat / 16), hexDigit (b.toNat % 16)]))

def execMfrPowerCap (write : Bool) (v : BitVec 16) (s : State) : Out :=
  .next (s.pmbus fun s =>
    if !write then s.reply 2 (linear11 (field (s.rd pgGaffer 0x44) 0 9 : Nat) 1)
    else
      let w := linear11Whole v.toNat
      if w < 100 ∨ 450 < w then s.cml 6
      else s.pmbusWrite 0x44 (word w.toNat) fun s x => s.wr pgGaffer 0x44 x)

def feedBlock (m : FeedMeter) : Bytes := leBytes 2 (linear11 (m.volt : Nat) 100) ++ leBytes 2 (linear11 (m.amp : Nat) 100)

def execMfrFeedA (s : State) : Out := .next (s.pmbus fun s => s.replyBlock (feedBlock s.power.meterA))
def execMfrFeedB (s : State) : Out := .next (s.pmbus fun s => s.replyBlock (feedBlock s.power.meterB))
def execMfrLevel (s : State) : Out := .next (s.pmbus fun s => s.reply 1 (s.power.level + 8 * s.rung))

def execMfrStart (s : State) : Out :=
  .next (s.pmbus fun s => s.reply 1 (s.boot.stage + 16 * b2n s.boot.screenPass + 32 * b2n s.boot.screenFail))

/-- Codes of R420. -/
def pmbusCodes : List Nat :=
  [0x01, 0x03, 0x19, 0x79, 0x7C, 0x7D, 0x7E, 0x88, 0x89, 0x8D, 0x8E, 0x8F] ++
  [0x97, 0x98, 0x99, 0x9A, 0x9E, 0xD0, 0xD1, 0xD2, 0xD3, 0xD4]

/-- A code outside R420's table is not acknowledged (R419). -/
def execPmbusUnsupported (code : Byte) (s : State) : Out :=
  .next (s.pmbus fun s => if pmbusCodes.contains code.toNat then s else (s.cml 7).emit .pmbusNak)

/-- The Alert Response Address is answered while SMBALERT# is asserted (R419). -/
def execAlertResponse (s : State) : Out :=
  .next (s.pmbus fun s =>
    if s.statusWord = 0 then s.emit .pmbusNak
    else s.emit (.arbAddress (if s.boot.strapErr || s.boot.stage = 9 then 0x6C else 0x60 + s.boot.slot)))

/-- No transaction for PMBUS_WDOG seconds (R375). -/
def execPmbusSilent (s : State) : Out :=
  let s := s.begin
  .next (if field (s.rd pgGaffer 0x88) 0 16 = 0 || s.power.pmbusSilent then s
    else (s.modPower fun w => { w with pmbusSilent := true }).raise pgGaffer 22)

end Sys2Proof.Machine
end

