-- ==== Sys2Proof/Machine/Slate.lean ====
section
/-! DEFINITION. The row SLATE, with what comes about inside it: the slate frame, the sweep, the dispatch, tick records and cue
edges, fault records, recorded steps, abandoned items and the judgement; and the row CUE_EDGE (R28, R33, R36, R44–R53, R151,
R259, R299, R307, R326, R333, R334, R393–R396, R402, R403, R408). -/
namespace Sys2Proof.Machine

/-! ### Writes that waited (R31, R249, R259, R310) -/

/-- SNAP: every page is held as FREEZE would hold it. -/
def State.snapNow (s : State) : State :=
  if s.reg.snapHeld then s
  else
    let s := { s with reg := { s.reg with snapTick := s.clap.num } }
    let s := (allPages.filter fun pg => !(s.hdr pg).freeze).foldl State.holdPage s
    ({ s with reg := { s.reg with snapHeld := true } } : State).raise pgGlobal 9

/-- RELEASE: pages without a FREEZE of their own are released. -/
def State.releaseNow (s : State) : State :=
  let s := { s with reg := { s.reg with snapHeld := false } }
  (allPages.filter fun pg => !(s.hdr pg).freeze).foldl State.dropHeld s

def State.runAct (s : State) : SlateAct → State
  | .snap => s.snapNow
  | .release => s.releaseNow
  | .mapCrcClr c => s.modUnit (pgPrime c) fun u => { u with mapCrc := 0 }
  | .uncommit p => { s with d2d := { s.d2d with decoders := mset (fun _ => none) s.d2d.decoders p none } }

/-- Place an action at the next slate, or carry it out at once without slates (R249). -/
def State.placeAct (s : State) (a : SlateAct) : State :=
  if s.slatesOn then { s with acts := s.acts ++ [a] } else s.runAct a

def State.runActs (s : State) : State := s.acts.foldl State.runAct { s with acts := [] }

/-- Does PORT_CTRL in force still admit the conversation (R283, R310)? -/
def State.admits (s : State) (c : Conv) : Bool :=
  c.port = 8 ||
  (match c.kind with
   | 1 => (!c.initiator && s.portCtl c.port 3) || s.portCtl c.port 6
   | 4 => s.portCtl c.port 4
   | 7 => s.portCtl c.port 5
   | _ => s.portCtl c.port 6)

/-- The link goes down and the port loses its keys and conversations; partners see silence. -/
def State.shutPort (s : State) (q : Nat) : State :=
  let s := (s.linkLost q).modPort q fun t => { t with opened := false, saltTx := none, keys := [], announced := false, dropNext := 0 }
  s.dropConvs fun c => c.port = q

/-- PORT_CTRL has taken force; `old` is what was in force before. -/
def State.portChanged (s : State) (q : Nat) (old : Word) : State :=
  if old = s.fo (pgPort q) 0x40 then s
  else if !s.portCtl q 0 then (if bit old 0 then s.shutPort q else s)
  else
    let s := s.openPort q
    (s.links.convs.filter fun c => c.port = q && !s.admits c).foldl
      (fun s c => if c.initiator then s.closeConv c.id else s.dropConv c.id) s

/-- Registers and actions placed at this slate. -/
def State.forceAtSlate (s : State) : State :=
  let old (q : Nat) : Word := s.fo (pgPort q) 0x40
  let group := s.reg.due.contains (rk pgGlobal 0x48) || s.reg.due.contains (rk pgGlobal 0x4C)
  let s := (s.runActs.wr pgGlobal 0x60 0).forceDue
  (List.range 9).foldl (fun s q => s.portChanged q (old q)) (s.raiseIf group pgGlobal 10)

/-! ### The rehearsal schedule at a slate (R402–R405) -/

def rehCfg (e : Nat) : Nat := 0x100 + 0x10 * e
def State.entryRepeat (s : State) (e : Nat) : Nat := field (s.rd pgReh (rehCfg e)) 8 8
/-- Slate of an entry's firing k. -/
def State.entrySlate (s : State) (e k : Nat) : Nat := s.rd64 pgReh (rehCfg e + 8) + k * field (s.rd pgReh (rehCfg e)) 16 16
def State.entryKind (s : State) (e : Nat) : Nat := field (s.rd pgReh (rehCfg e)) 0 4

/-- A firing is done, with an outcome. -/
def State.firedOnce (s : State) (e : Nat) : State :=
  { s with reh := { s.reh with fired := mmod (fun _ => 0) s.reh.fired e (· + 1) } }

/-- SCHEDULE_DONE, once. -/
def State.scheduleDone (s : State) : State :=
  if s.reh.running && (List.range 16).all fun e => s.entryLeft e = 0 then
    ({ s with reh := { s.reh with running := false } } : State).raise pgReh 11
  else s

/-- A MISSED firing. -/
def State.missFiring (s : State) (e : Nat) : State := (s.injectOutcome e (s.entryKind e) 2).firedOnce e

/-- ARM takes effect: firings before slate A are MISSED. -/
def State.armAtSlate (s : State) : State :=
  let on := bit (s.fo pgReh 0x40) 0
  if on && !s.reh.armed then
    let s := { s with reh := { s.reh with armed := true, fired := [], running := true } }
    let s := (List.range 16).foldl (fun s e =>
      let n := countIf (fun k => decide (s.entrySlate e k < s.clap.num)) (List.range (s.entryRepeat e))
      (List.range n).foldl (fun s _ => s.missFiring e) s) s
    s.scheduleDone
  else if !on && s.reh.armed then { s with reh := { s.reh with armed := false, running := false } }
  else s

/-- Injections on an access that no access met expire as MISSED. -/
def State.expireInjects (s : State) : State :=
  s.reh.live.foldl (fun s (i : Inject) => s.injectOutcome i.entry i.kind 2) { s with reh := { s.reh with live := [] } }

/-! ### The slate frame (R299) -/

/-- The frame of a slate whose deciding instant has no command of its own, the timer's, goes out with the slate (log entry 34). -/
def State.sendSlate (s : State) : State :=
  if s.clap.frameSent then { s with clap := { s.clap with frameSent := false } }
  else s.sendFrame s.clap.num s.clap.ts s.clap.hold s.clap.pred

/-! ### Tick records (R46, R52, R105, R307, R333, R394, R398) -/

/-- OUT_OFFSET of a tick: its FRAME item's place in the output area. -/
def tickOutOffset (im : Bytes) (n : Nat) : Nat :=
  match (sheet im).find? fun e => e.op = opFrame with
  | some e => outSlot im n + (frameDesc (descBytes im e.desc 64)).outArea
  | none => 0

def tickData (n count off : Nat) (digest : Bytes) : Bytes := leBytes 8 n ++ leBytes 4 count ++ leBytes 4 off ++ fitBytes 8 digest

/-- RESULT message of a record and its detections, on every conversation of the group result stream. -/
def State.sendResult (s : State) (msg : Nat) (reh : Bool) (data : Bytes) : State :=
  if !s.twin.drive || !s.leadPair then s
  else (s.links.convs.filter fun c => c.kind = 7 && c.initiator && s.portCtl c.port 5).foldl
    (fun s c => s.sendOn c.id { msg := msg, flags := 8 * b2n reh, total := data.length, data := data }) s

/-- Write a TICK (4) or TICK_LATE (5) record of a class A reel and send it.  R311 lets a PRINCIPAL only write tick records: in role
NONE the deliveries are judged for R394 and R398, and nothing is written (DEDUCED, log entry 36). -/
def State.publish (s : State) (r : Reel) (kind msg : Nat) (reh : Bool) (data dets : Bytes) : State :=
  if s.twin.role ≠ .principal then s else
  let x : Rec := { kind := kind, cls := 1, tag := r.handle, handle := r.handle, flags := 4 * b2n reh, data := data }
  let b := recBytes { x with slate := s.clap.num, part := r.p, flags := x.flags ||| s.recFlags false } (s.tickProduced r.p + 1)
  (s.writeTick r.p x).sendResult msg reh (b ++ dets)

/-- Digest bytes of a tick that is not complete: the spec gives them no value, so they are free. -/
def State.freeDigest (s : State) : Bytes × State :=
  let (k, s) := s.draw
  (leBytes 8 (Config.freeNat k), s)

/-- LATE_RUN counts delivery slates with TICK_LATE for a tick whose inputs were complete by slate N + 1. -/
def State.lateSlate (s : State) (onTime : Bool) : State :=
  let n := if onTime then s.sched.lateRun + 1 else 0
  let s := { s with sched := { s.sched with lateRun := n } }
  if n = 3 then s.graveDiag .lateRun else s

/-- A TICK_LATE record with COUNT 0. -/
def State.publishLate (s : State) (r : Reel) (n : Nat) (reh : Bool) (digest : Option Bytes) : State :=
  match digest with
  | some d => s.publish r 5 (2 * n) reh (tickData n 0 (tickOutOffset r.image n) d) []
  | none =>
    let (d, s) := s.freeDigest
    s.publish r 5 (2 * n) reh (tickData n 0 (tickOutOffset r.image n) d) []

/-- Delivery of tick N at slate N+2. -/
def State.deliver (s : State) (r : Reel) (t : TickRun) : State :=
  let n := t.tick
  let broken : Bool := match s.sched.breakAt with | some b => decide (b ≤ n) | none => false
  let s := if s.twin.role = .principal then { s with twin := { s.twin with published := n } } else s
  let s := if t.complete && s.twin.gap && s.twin.gapF.isNone && decide (s.twin.gapS.getD 0 ≤ n) then
      { s with twin := { s.twin with gapF := some n } }
    else s
  if t.complete && !broken then
    let s := { s with sched := { s.sched with lateRun := 0 } }
    let s := s.publish r 4 (2 * n) t.rehearsal (tickData n t.count t.outOffset t.digest) t.dets
    (s.placeTick t t.cues).modTick n fun t => { t with published := true }
  else
    let s := s.publishLate r n t.rehearsal (if t.complete then some t.digest else none)
    (s.modTick n fun t => { t with lateWritten := true, published := broken || t.dead }).lateSlate t.onTimeInput

/-- The second record of a late tick, at the first slate after its completion. -/
def State.deliverSecond (s : State) (r : Reel) (t : TickRun) : State :=
  let s := s.publish r 5 (2 * t.tick + 1) t.rehearsal (tickData t.tick t.count t.outOffset t.digest) t.dets
  s.modTick t.tick fun t => { t with published := true }

/-- TICK_LATE records of the ticks that a claim cut off (R333). -/
def State.deliverCut (s : State) (r : Reel) : State :=
  match s.twin.cut with
  | none => s
  | some (first, p) =>
    if s.clap.num < first + 2 then s
    else
      let s := { s with twin := { s.twin with cut := none } }
      ((List.range (first - (p + 1))).map (· + (p + 1))).foldl (fun s n => s.publishLate r n false none) s

/-- The delivery slate of tick N − 2, for a module in role PRINCIPAL or NONE, from its first tick on. -/
def State.publishAtSlate (s : State) : State :=
  let n := s.clap.num - 2
  if !(s.twin.role = .principal || s.twin.role = .none) || decide (s.clap.num < 2) then s
  else match s.classA with
    | none => s
    | some r =>
      let late := s.sched.ticks.filter fun t => decide (t.tick < n) && t.lateWritten && t.complete && !t.published
      let s := late.foldl (fun s t => s.deliverSecond r t) s
      let s := s.deliverCut r
      match s.tickRun n with
        | some t => if decide (s.twin.pubFrom ≤ n) && !t.lateWritten && !t.published then s.deliver r t else s
        | none => s

/-- What the tick that ends tells of the ticks in it (R320, R398), and ticks that nothing asks about any more. -/
def State.rollTicks (s : State) : State :=
  let n := s.clap.num
  let w := s.power
  let s := { s with sched := { s.sched with ticks := (s.sched.ticks.filter fun (t : TickRun) =>
      decide (n < t.tick + 32) || (!t.published && !t.dead && decide (n < t.tick + 65536))).map fun (t : TickRun) =>
        if t.tick + 2 = n then { t with tj := w.tickTj, load := w.loadSig, lvl := w.tickLevel }
        else if t.tick + 1 = n then { t with onTimeInput := s.inputBy t.tick s.clap.last } else t } }
  s.modPower fun w => { w with tickTj := w.tj, loadSig := 0, tickLevel := w.level }

/-! ### Fault records (R395, R396) -/

/-- At most 16 records of a partition: beyond them, 15 and one that counts the rest. -/
def State.faultsOf (s : State) (p : Nat) (l : List Rec) : State :=
  let out := if l.length ≤ 16 then l
    else l.take 15 ++ [{ kind := 7, reason := 0x01FF, part := p, data := leBytes 4 (l.length - 15) }]
  if out.isEmpty || !(s.part p).enabled then s
  else (out.foldl (fun s r => s.writeTick p r) s).latchVec (4 * p + 2)

def State.faultsAtSlate (s : State) : State :=
  let l := s.sched.faults
  let s := { s with sched := { s.sched with faults := [] } }
  (List.range 16).foldl (fun s p => s.faultsOf p (l.filter fun r => r.part = p)) s

/-! ### The script core's part (R54, R151, R403) -/

/-- Work of an unfinished slate is tagged: a rehearsal stalled it. -/
def State.tagStalled (s : State) : State :=
  { s with script := { s.script with
      runs := s.script.runs.map fun (r : Run) => if 0 < r.doneSteps then { r with rehearsal := true } else r } }

/-- HEARTBEAT advances when the firmware has finished the slate's context work; SCRIPT_LATE is due when it has not. -/
def State.scriptAtSlate (s : State) : State :=
  let down := s.scriptDown && (s.script.stat = 2 || s.script.stat = 3)
  let s := s.script.deferred.foldl (fun s (x : Nat × Nat × Nat × Req) =>
      (s.unreserve x.1).writeResult x.1 { reqRec 3 x.2.2.1 x.2.1 x.2.2.2 with flags := 4 })
    { s with script := { s.script with deferred := [], stalled := false } }
  if s.reh.stall && !s.scriptDown then
    let e := mget (fun _ => 0) s.reh.timeEntry 7
    let s := { s with reh := { s.reh with stall := false }, script := { s.script with stalled := true, lateDue := true } }
    ((s.raiseWith pgScript evRehearsal true false).injectOutcome e 7 1).tagStalled
  else if s.scriptDown then { s with script := { s.script with lateDue := down } }
  else
    let s := { s with script := { s.script with heartbeat := (s.script.heartbeat + 1) % 2 ^ 32, lateDue := false } }
    s.recordSteps.finishCopies

/-! ### The sweep (R42, R44, R45) -/

/-- Slots `slot`, `slot + 1`, … of partition p, until a read fails or the ring is short of room. -/
def State.sweepSlots (s : State) (p slot n : Nat) : State :=
  match n with
  | 0 => s
  | n + 1 =>
    onSome (s.sweepRead p slot) id fun r s =>
      let x := s.takeSlot p slot r
      if x.1 = .full then x.2 else x.2.sweepSlots p (slot + 1) n

/-- Partitions in turn, the first one rotating. -/
def State.sweepParts (s : State) (l : List Nat) : State :=
  match l with
  | [] => s
  | p :: rest =>
    if !s.sweptPart p then s.sweepParts rest
    else
      let s := s.sweepRoom p
      let s := if s.sched.sweepCut then s else s.sweepSlots p 0 (s.rdn (pgPart p) 0x64)
      if s.sched.sweepCut then s else s.sweepParts rest

/-- The sweep; the FABRIC cycles that it took are a free value. -/
def State.sweep (s : State) : State :=
  let s := { s with sched := { s.sched with swept := 0, sweepCut := false, spent := [] } }
  if !bit (s.rd pgSched 0x40) 0 then s
  else
    let (k, s) := s.draw
    let s := { s with sched := { s.sched with sweepCycles := Config.freeNat k } }
    s.sweepParts ((List.range 16).map fun k => (s.clap.num + k) % 16)

/-! ### Dispatch (R36, R40, R48, R49) -/

/-- Items of tick n − 1 of the class A reel. -/
def State.dispatchA (s : State) : State :=
  match s.classA with
  | none => s
  | some r =>
    let n := s.clap.num
    if n = 0 || !r.takes (n - 1) || (s.tickRun (n - 1)).isNone || !(s.tickItems (n - 1)).isEmpty then s
    else
      let idle := !(s.sched.items.any fun i => i.cls = 1 && i.open')
      let marked := (sheet r.image).any fun e => e.preds.any fun q => decide (0x8000 ≤ q)
      let s := if idle && !marked then
          { s with units := { s.units with streams := s.units.streams.filter fun (e : Nat × Bytes) => decide (65536 ≤ e.1) } }
        else s
      match s.placeSheet r with
      | none => s
      | some l => (s.addItems r { cls := 1, tick := n - 1 } [] l).finishTick (n - 1)

/-- The tick that begins at this slate, once the reel's first tick T0 has begun. -/
def State.beginTick (s : State) : State :=
  match s.classA with
  | some r =>
    let n := s.clap.num
    if 0 < n && r.takes n && (s.tickRun (n - 1)).isSome then s.openTick r n else s
  | none => s

/-- The shares of class B and class C restart with the tick (R49). -/
def State.newShares (s : State) : State := { s with units := { s.units with servedB := [], servedC := [] } }

def State.dispatchAll (s : State) : State := s.newShares.beginTick.dispatchA.dispatchRuns.dispatchBatches.startReady

/-! ### Dailies profiles (R408) -/

def State.profileAtSlate (s : State) : State :=
  let n := s.dly.profSlates + 1
  if n < 2 ^ field (s.fo pgDailies 0x40) 16 4 then { s with dly := { s.dly with profSlates := n } }
  else
    let s := ((List.range 16).filter fun p => (s.part p).enabled).foldl (fun s p =>
      let f := mget (fun _ => {}) s.dly.prof p
      s.note { tick := s.clap.num, kind := 3, part := p,
               info := leBytes 4 (f.prime / 1024) ++ leBytes 4 (f.gen / 1024) ++ leBytes 4 (f.mem / 1024) ++ leBytes 4 f.tokens }) s
    { s with dly := { s.dly with profSlates := 0, prof := [] } }

/-! ### The slate -/

/-- Configuration, reset and twin commands that were placed at this slate. -/
def State.slateConfig (s : State) : State :=
  let s := s.forceAtSlate.armAtSlate.expireInjects
  s.scrubsAtSlate.enablesAtSlate.enterAtSlate.cmdsAtSlate.stepForReel.recheckClaim

/-- What the guard writes: steps, batches, the judgement, tick and fault records. -/
def State.slateRecords (s : State) : State :=
  let s := s.sendSlate.abandonHalted.scriptAtSlate.judgeBatches.retireItems.pruneMix
  s.judgeAtSlate.publishAtSlate.faultsAtSlate

/-- HALO_BYTES shows the halo that a cell holds across this slate (R88, R110). -/
def State.haloAtSlate (s : State) : State :=
  match s.classA with
  | none => s
  | some r => r.cells.foldl (fun s c => s.modUnit (pgPrime c) fun u => { u with halo := sumNat (u.halos.map fun e => e.2) }) s

/-- The work of the new tick. -/
def State.slateWork (s : State) : State :=
  let s := { s with sched := { s.sched with usedRd := 0, usedWr := 0, shareExc := false } }
  let s := s.scrubAtSlate.storeAtSlate.gateAtSlate.haloAtSlate
  let s := s.sweep.dispatchAll.sendVecs
  s.contNoReel.noticeAtSlate.ckptsAtSlate.trimTakes.profileAtSlate

/-- What a report of the tick that begins describes, after the sweep (R354, R356). -/
def State.takeShot (s : State) : State :=
  { s with shot := some { reg := s.reg, clap := s.clap, reels := s.sched.reels, parts := s.parts, sec := s.sec, twin := s.twin,
                          reh := s.reh } }

/-- A slate at an instant. -/
def State.slate (s : State) (inst : Nat) : State :=
  let src := s.src
  ((s.clapAdvance inst).rollTicks.slateConfig.slateRecords.slateWork).takeShot.clapNext src

def execSlate (inst : Nat) (s : State) : Out :=
  let s := s.begin.at inst
  .next (if s.slateDue inst then s.slate inst else s)

/-! ### Cue edges (R53, R312, R334) -/

/-- Instant of an edge of the last slate, in the model's time unit. -/
def State.edgeAt (s : State) (e : Cue) : Nat := s.clap.ref + e.off * tNs

/-- Edges that have come due on an output: those of an earlier slate, and those of the last one up to 1 µs ahead. -/
def State.edgeDue (s : State) (inst : Nat) (e : Cue) : Bool :=
  decide (e.slate < s.clap.num) || (decide (e.slate = s.clap.num) && decide (s.edgeAt e ≤ inst + tUs))

/-- Does edge a come before edge b? -/
def cueBefore (a b : Cue) : Bool := decide (a.slate < b.slate) || (decide (a.slate = b.slate) && decide (a.off < b.off))

/-- The first of the edges due. -/
def firstCue (l : List Cue) : Option Cue :=
  l.foldl (fun (b : Option Cue) e => match b with | none => some e | some x => if cueBefore e x then some e else b) none

/-- One edge is placed; of several at one instant the one scheduled last sets the level. -/
def State.placeCue (s : State) (o : Nat) (e : Cue) : State :=
  let q := s.cueQueue o
  let same (x : Cue) : Bool := x.slate = e.slate && x.off = e.off
  let level : Bool := match (q.filter same).getLast? with | some x => x.level | none => e.level
  let s := { s with sched := { s.sched with
    cues := mset (fun _ => []) s.sched.cues o (q.filter fun x => !same x)
    cueLevel := mset (fun _ => false) s.sched.cueLevel o level } }
  if s.twin.gap then s.count pgTwin 0x84 (countIf same q) else s.drivePins

def execCueEdge (o : Fin 8) (inst : Nat) (s : State) : Out :=
  let s := s.begin.at inst
  .next (match firstCue ((s.cueQueue o.val).filter (s.edgeDue inst)) with
    | none => s
    | some e => s.placeCue o.val e)

end Sys2Proof.Machine
end

