-- ==== Sys2Proof/Machine/Rehearsal.lean ====
section
/-! DEFINITION. The rehearsal schedule (R402–R405), dailies dumps (R407, R410) and the Cutter's known-answer block (R162, R166). -/
namespace Sys2Proof.Machine

/-! ### ARM (R402, R404) -/

/-- Does a kind of injection allow the target page (R403)? -/
def kindAllows (kind pg : Nat) : Bool :=
  let k := pageKind pg
  match kind with
  | 1 => k = .prime || k = .draw || k = .focus || k = .framing || k = .cutter || k = .tcctx || k = .mag
  | 2 => k = .channel
  | 3 => k = .port || k = .cont
  | 4 => k = .clapper
  | 5 => k = .clapper
  | 6 => k = .twin
  | 7 => k = .script
  | 8 => k = .twin
  | _ => false

def State.entrySub (s : State) (e : Nat) : Nat := field (s.rd pgReh (rehCfg e)) 4 4
def State.entryPeriod (s : State) (e : Nat) : Nat := field (s.rd pgReh (rehCfg e)) 16 16
def State.entryTarget (s : State) (e : Nat) : Nat := field (s.rd pgReh (rehCfg e + 4)) 0 12
/-- OFFSET_US. -/
def State.entryOffset (s : State) (e : Nat) : Nat := field (s.rd pgReh (rehCfg e + 4)) 16 15

/-- Conditions of R404 on an entry in use. -/
def State.entryOk (s : State) (e : Nat) : Bool :=
  let k := s.entryKind e
  let sub := s.entrySub e
  kindAllows k (s.entryTarget e) && (if k = 3 then decide (1 ≤ sub) else sub == 0)
    && decide (s.entryOffset e < s.periodUs) && (decide (s.entryRepeat e ≤ 1) || s.entryPeriod e != 0)

/-- A write of REH_CTRL: the change takes effect at the next slate, or at once without slates (R249). -/
def State.armWrite (s : State) (v : Word) : State :=
  if bit v 0 && !bit (s.rd pgReh 0x40) 0 && (List.range 16).any fun e => decide (0 < s.entryRepeat e) && !s.entryOk e then
    s.refuse pgReh
  else
    let s := s.wrSlate pgReh 0x40 v
    if s.slatesOn then s else s.armAtSlate

def execArm (on : Bool) (s : State) : Out :=
  .next (s.begin.gated pgReh 0x40 (if on then 1 else 0) fun s w => s.armWrite w)

/-! ### A firing (R402, R403) -/

/-- Is the target fenced, or its domain gated? -/
def State.targetShut (s : State) (pg : Nat) : Bool :=
  !s.pageOn pg || (match pageKind pg with | .prime | .draw | .focus => s.fenced pg | _ => false)

/-- Does the target already hold an injection of this kind's sort? -/
def State.targetHolds (s : State) (kind pg : Nat) : Bool :=
  match kind with
  | 1 => s.reh.live.any fun i => i.page = pg
  | 2 => s.reh.live.any fun i => i.page = pg
  | 3 => decide (0 < (s.port (if pg = pgCont then 8 else pg - 0x18)).dropNext)
  | 4 => s.reh.clapSkip
  | 5 => s.reh.slateSkip
  | 6 => s.reh.contHold
  | 7 => s.reh.stall
  | _ => false

/-- The injection takes its place, or acts at once for GRAVE. -/
def State.inject (s : State) (e kind pg : Nat) : State :=
  let timed (s : State) : State := { s with reh := { s.reh with timeEntry := mset (fun _ => 0) s.reh.timeEntry kind e } }
  match kind with
  | 1 => { s with reh := { s.reh with live := s.reh.live ++ [{ entry := e, kind := 1, page := pg }] } }
  | 2 => { s with reh := { s.reh with live := s.reh.live ++ [{ entry := e, kind := 2, page := pg }] } }
  | 3 => s.modPort (if pg = pgCont then 8 else pg - 0x18) fun t =>
      { t with dropNext := s.entrySub e, dropEntry := e, dropFirst := true }
  | 4 => let s := timed s; { s with reh := { s.reh with clapSkip := true } }
  | 5 => let s := timed s; { s with reh := { s.reh with slateSkip := true } }
  | 6 => let s := timed s; { s with reh := { s.reh with contHold := true } }
  | 7 => let s := timed s; { s with reh := { s.reh with stall := true } }
  | 8 =>
    let s := if s.twin.grave then s.raiseWith pgTwin evRehearsal true false else s
    (s.graveDiag .rehearsed true).injectOutcome e 8 1
  | _ => s

/-- Is the next firing of an entry due? -/
def State.firingDue (s : State) (e : Nat) : Bool :=
  s.reh.armed && s.slatesOn && decide (0 < s.entryLeft e)
    && decide (s.entrySlate e (mget (fun _ => 0) s.reh.fired e) ≤ s.clap.num)

def State.fire (s : State) (e : Nat) : State :=
  let kind := s.entryKind e
  let pg := s.entryTarget e
  let misses := s.targetHolds kind pg || s.targetShut pg || (kind == 6 && s.twin.role ≠ .principal)
  State.scheduleDone (if misses then s.missFiring e else (s.inject e kind pg).firedOnce e)

def execRehearsalFiring (e : Fin 16) (s : State) : Out :=
  let s := s.begin
  .next (if s.firingDue e.val then s.fire e.val else s)

/-! ### Dumps (R407, R410) -/

/-- The 32 bytes of a record. -/
def dailyBytes (d : Daily) : Bytes :=
  leBytes 8 d.tick ++ leBytes 1 d.kind ++ leBytes 1 d.part ++ leBytes 1 d.flags ++ leBytes 1 d.bitNo ++ leBytes 2 d.page
  ++ leBytes 2 0 ++ fitBytes 16 d.info

def State.dumpStart (s : State) : State :=
  let a := s.rd64 pgDailies 0x54
  if !s.inSpace 0 a (32 * s.dly.recs.length) then s.refuse pgDailies
  else { s with dly := { s.dly with dumpSt := 1, dumping := s.dly.recs.reverse, dumpAddr := a } }

def State.dumpClear (s : State) : State := { s with dly := { s.dly with recs := [], head := 0 } }

/-- DUMP_CMD. -/
def State.dumpCmd (s : State) (v : Word) : State :=
  if field v 0 2 = 0 then s
  else if s.dly.dumpSt = 1 then s.refuse pgDailies
  else
    let s := if bit v 0 then s.dumpStart else s
    if bit v 1 then s.dumpClear else s

def execDump (s : State) : Out := .next (s.begin.gated pgDailies 0x5C 1 fun s w => s.dumpCmd w)
def execClear (s : State) : Out := .next (s.begin.gated pgDailies 0x5C 2 fun s w => s.dumpCmd w)

/-- A dump ends as failed: some of its records may have been written. -/
def State.dumpFails (s : State) (n : Nat) : State :=
  ({ s with dly := { s.dly with dumpSt := 3, dumpCount := n, dumping := [] } } : State).raise pgDailies 10

/-- The copy ends; `ok` is false after a bus error, when the records copied are a free number. -/
def execDumpDone (ok : Bool) (s : State) : Out :=
  let s := s.begin
  let l := s.dly.dumping
  let put (s : State) (n : Nat) : Option StoreErr × State :=
    s.store { p := 0 } s.dly.dumpAddr ((l.take n).flatMap dailyBytes)
  .next (if s.dly.dumpSt ≠ 1 then s
    else if ok then
      match put s l.length with
      | (none, s) =>
        ({ s with dly := { s.dly with dumpSt := 2, dumpCount := l.length, dumping := [] } } : State).raise pgDailies 9
      | (some _, s) =>
        let (k, s) := s.draw
        s.dumpFails (Config.freeNat k % (l.length + 1))
    else
      let (k, s) := s.draw
      let n := Config.freeNat k % (l.length + 1)
      (put s n).2.dumpFails n)

/-! ### The known-answer block (R162, R166) -/

/-- KAT_GO: the block starts with the key and counter as they stand. -/
def State.katStart (s : State) (v : Word) : State :=
  if !bit v 0 then s
  else if s.units.kat.busy then s.refuse pgCutter
  else { s with units := { s.units with kat :=
      { busy := true, key0 := s.rd pgCutter 0x68, key1 := s.rd pgCutter 0x6C,
        ctr := (List.range 4).map fun k => s.rd pgCutter (0x70 + 4 * k) } } }

def execKatGo (s : State) : Out := .next (s.begin.gated pgCutter 0x80 1 fun s w => s.katStart w)

/-- Output words x0 to x3 of the block in progress. -/
def katWords (k : Kat) : List Nat :=
  let c (i : Nat) : Nat := (k.ctr.getD i 0).toNat
  philox k.key0.toNat k.key1.toNat (c 0) (c 1) (c 2) (c 3)

def execKatBlockDone (s : State) : Out :=
  let s := s.begin
  .next (if !s.units.kat.busy then s
    else
      let x := katWords s.units.kat
      let s := (List.range 4).foldl (fun s k => s.wr pgCutter (0x84 + 4 * k) (word (x.getD k 0))) s
      { s with units := { s.units with kat := { s.units.kat with busy := false } } })

end Sys2Proof.Machine
end

