-- ==== Sys2Proof/Machine/RegWrite.lean ====
section
/-! DEFINITION. Register accesses: the common header (R252–R262), block resets, and what a write of each block-specific
register does (the register tables of the chapters; R12, R107, R138, R229, R253, R254, R259, R263–R265, R294, R310, R362, R387). -/
namespace Sys2Proof.Machine

/-! ### Block-specific registers -/

/-- Carry out `f` where the register's condition holds; otherwise the write is dropped with WRITE_REFUSED. -/
def State.when (s : State) (ok : Bool) (pg : Nat) (f : State → State) : State := if ok then f s else s.refuse pg

/-- Store a register that takes force at once. -/
def State.wrNow (s : State) (pg off : Nat) (v : Word) : State := (s.wr pg off v).takeForce (rk pg off)

/-- SNAP_CTRL: the bits stay set until they have acted; RELEASE wins (R259). -/
def State.snapWrite (s : State) (v : Word) : State :=
  if !s.slatesOn then (if bit v 1 then s.releaseNow else if bit v 0 then s.snapNow else s)
  else
    let v := v ||| s.rd pgGlobal 0x60
    let s := { s with acts := s.acts.filter fun a => !(a = SlateAct.snap || a = SlateAct.release) }
    let s := if bit v 1 then s.placeAct .release else if bit v 0 then s.placeAct .snap else s
    s.wr pgGlobal 0x60 v

/-- Is any cascade port or the continuity port open? -/
def State.anyPortOpen (s : State) : Bool := (List.range 9).any fun q => (s.port q).opened

/-- GROUP_CFG and LEAD_ID: taken at the next slate. -/
def State.groupWrite (s : State) (off : Nat) (v : Word) : State :=
  let s := s.wrSlate pgGlobal off v
  if s.slatesOn then s else s.raise pgGlobal 10

def State.storeGlobal (s : State) (off : Nat) (v : Word) : State :=
  let size := field v 0 7
  if off = 0x40 then s.when (!s.anyPortOpen) pgGlobal fun s => s.wr pgGlobal off v
  else if off = 0x48 then
    s.when (s.sched.reels.isEmpty && decide (1 ≤ size) && decide (size ≤ 64) && decide (field v 8 6 < size)) pgGlobal
      fun s => s.groupWrite off v
  else if off = 0x4C then s.when s.sched.reels.isEmpty pgGlobal fun s => s.groupWrite off v
  else if off = 0x50 then s.writeWarmRst v
  else if off = 0x60 then s.snapWrite v
  else s.wr pgGlobal off v

/-- A cap of 100 to 450 W. -/
def capOk (n : Nat) : Bool := decide (100 ≤ n) && decide (n ≤ 450)

def ladderOk (v : Word) : Bool :=
  let t (k : Nat) : Nat := field v (8 * k) 8
  decide (70 ≤ t 0) && decide (t 0 < t 1) && decide (t 1 < t 2) && decide (t 2 < t 3) && decide (t 3 ≤ 112)

def State.wrapCmd (s : State) (v : Word) : State :=
  if bit v 1 then s.wrapWake else if bit v 0 then s.wrapEnter.2 else s

def State.storeGaffer (s : State) (off : Nat) (v : Word) : State :=
  let put (s : State) : State := s.wr pgGaffer off v
  if off = 0x40 then s.wrSlate pgGaffer off v
  else if off = 0x44 then s.when (capOk (field v 0 9)) pgGaffer put
  else if off = 0x48 then s.when (decide (5 ≤ v.toNat) && decide (v.toNat ≤ 100)) pgGaffer put
  else if off = 0x4C then s.when (ladderOk v) pgGaffer put
  else if off = 0x50 then s.when (capOk (field v 0 9) && capOk (field v 16 9)) pgGaffer put
  else if off = 0x80 then s.wrapCmd v
  else put s

def State.storeClapper (s : State) (off : Nat) (v : Word) : State :=
  if off = 0x40 then s.clapWrite .ctrl v
  else if off = 0x44 then s.clapWrite .period v
  else if off = 0x48 then s.clapWrite .win v
  else if off = 0x74 then s.clapWrite .delay v
  else if off = 0x4C then s.wrSlate pgClapper off v
  else s.wr pgClapper off v

/-- SWEEP_EN = 1 is refused while SCREEN_FAIL is 1 (R390). -/
def State.storeSched (s : State) (off : Nat) (v : Word) : State :=
  if off = 0x40 then s.when (!(bit v 0 && s.boot.screenFail) && decide (field v 8 7 ≤ 50)) pgSched fun s => s.wr pgSched off v
  else s.wr pgSched off v

/-- PORT_CTRL (R310). -/
def State.portCtrl (s : State) (q : Nat) (v : Word) : State :=
  let pg := pgPort q
  let opn := bit v 0
  let alt := (List.range 8).any fun r => r ≠ q && bit (s.rd (pgPort r) 0x40) 6
  let ok := (opn || !s.classALoaded || field (s.rd pg 0x40) 1 5 = 0) && !(q ≠ 8 && bit v 6 && alt)
  s.when ok pg fun s =>
    let old := s.fo pg 0x40
    let s := s.wrSlate pg 0x40 v
    if !s.slatesOn then s.portChanged q old
    else if opn && !bit old 0 then (s.wrForce pg 0x40 (setBit old 0 true)).portChanged q old
    else s

/-- Ranges of a port's timer and limit registers. -/
def timerOk (off : Nat) (v : Word) : Bool :=
  let n := v.toNat
  if off = 0x4C then decide (2 ≤ n) && decide (n ≤ 1000)
  else if off = 0x50 then decide (1 ≤ n) && decide (n ≤ 1000)
  else if off = 0x54 then decide (50 ≤ field v 0 16) && decide (1 ≤ field v 16 8)
  else if off = 0x58 then decide (10 ≤ n) && decide (n ≤ 10000)
  else if off = 0x5C then decide (100 ≤ field v 0 16) && decide (1 ≤ field v 16 8) && decide (1 ≤ field v 24 8)
  else if off = 0x60 then decide (1 ≤ n) && decide (n ≤ 64)
  else true

def State.storePort (s : State) (q off : Nat) (v : Word) : State :=
  let pg := pgPort q
  if off = 0x40 then s.portCtrl q v
  -- R290: timer registers take effect at the next slate
  else if off < 0x60 then s.when (timerOk off v) pg fun s => s.wrSlate pg off v
  else if off = 0x60 then s.when (timerOk off v) pg fun s => s.wrNow pg off v
  else if off = 0x64 then s.when (decide (1 ≤ v.toNat)) pg fun s => s.wrSlate pg off v
  else if off = 0x6C then (s.wr pg off v).ptpSelect
  else if off = 0x100 then s.wrSlate pg off v
  else s.wr pg off v

def State.storeTwin (s : State) (off : Nat) (v : Word) : State :=
  if off = 0x40 then s.when (s.twin.role = .none || s.twin.role = .yielded) pgTwin fun s => s.wr pgTwin off v
  else if off = 0x44 then s.twinCmd v
  else if off = 0x48 then
    let s := s.wrSlate pgTwin off v
    if s.slatesOn then s else s.recheckClaim
  else if off = 0x54 then s.when (decide (5 ≤ v.toNat) && decide (v.toNat ≤ 200)) pgTwin fun s => s.wr pgTwin off v
  else s.wr pgTwin off v

/-- Entry registers are closed while ARM is 1 (R404). -/
def State.storeReh (s : State) (off : Nat) (v : Word) : State :=
  if off = 0x40 then s.armWrite v
  else s.when (!bit (s.rd pgReh 0x40) 0) pgReh fun s => s.wr pgReh off v

/-- An address register's low word, whose bits [11:0] must be 0. -/
def pageAligned (v : Word) : Bool := v.toNat % 4096 = 0

def State.storeDailies (s : State) (off : Nat) (v : Word) : State :=
  if off = 0x40 then s.wrSlate pgDailies off v
  else if off = 0x54 then s.when (pageAligned v) pgDailies fun s => s.wr pgDailies off v
  else if off = 0x5C then s.dumpCmd v
  else s.wr pgDailies off v

def State.storeMag (s : State) (m off : Nat) (v : Word) : State :=
  let pg := pgMag m
  if off = 0x40 then s.writeLinks m v
  else if off = 0x68 then s.wrSlate pg off v
  else if off = 0x84 then (if bit v 0 then s.diagRead m else s)
  else s.wr pg off v

def State.storeParkReg (s : State) (off : Nat) (v : Word) : State :=
  if off = 0x40 then s.writeLinks 8 v
  else if off = 0x64 then s.wrSlate pgPark off v
  else s.wr pgPark off v

/-- CELL_CTRL and PIPE_CTRL (R107, R138). -/
def State.fenceWrite (s : State) (pg : Nat) (v : Word) : State :=
  let new := bit v 0 && !bit (s.rd pg 0x40) 0
  let s := s.wrSlate pg 0x40 v
  if new && s.heldByA pg then (s.modUnit pg fun u => { u with fencePending := true }).raise pg 12
  else if bit v 0 then s
  else s.modUnit pg fun u => { u with fencePending := false }

def State.storeUnit (s : State) (pg off : Nat) (v : Word) : State :=
  if off = 0x40 then s.fenceWrite pg v
  else if off = 0x70 then (if bit v 0 then s.placeAct (.mapCrcClr (pg - 0x100)) else s)
  else s.wr pg off v

/-! ### SEC pages (R351–R353, R362) -/

/-- Is p enabled, about to be, or under scrub? -/
def State.partBusy (s : State) (p : Nat) : Bool :=
  (s.hdr (pgPart p)).enable || (s.part p).enabled || (s.part p).scrubbing

def State.storeSec (s : State) (pg off : Nat) (v : Word) : State :=
  let put (s : State) : State := s.wr pg off v
  if pg = 8 then
    if off = 0x50 then s.wrSlate pg off v
    else s.when (!((List.range 16).any fun p => bit (v ^^^ s.rd pg off) p && s.partBusy p)) pg put
  else if pg = 9 then
    if off = 0x40 then s.when (pageAligned v) pg put
    else if off = 0x48 then s.when (decide (1 ≤ v.toNat) && decide (v.toNat ≤ 8192)) pg put
    else if off = 0x4C then s.fwCmd v
    else if off = 0x50 then s.svnCommit v
    else put s
  else if pg = 10 then s.when (!s.partBusy ((off - 0x40) / 0x40)) pg put
  else s.when (decide (v.toNat ≤ 1823)) pg put

/-! ### PARTITION pages (R263–R265, R229) -/

/-- Main-store, park and context ranges of a partition as (first, count). -/
def State.rangesOf (s : State) (p : Nat) : List (Nat × Nat) :=
  let ms := s.rd (pgPart p) 0x48
  let pk := s.rd (pgPart p) 0x4C
  [(field ms 0 8, field ms 16 8), (field pk 0 9, field pk 16 10), (s.ctxFirst p, s.ctxCount p)]

def rangeMeet (a b : Nat × Nat) : Bool := rangesMeet a.1 a.2 b.1 b.2

/-- R263's range tests on the state with the new value stored. -/
def State.rangesOk (s : State) (p : Nat) : Bool :=
  let l := s.rangesOf p
  let ms := l.getD 0 (0, 0)
  let pk := l.getD 1 (0, 0)
  let cx := l.getD 2 (0, 0)
  decide (ms.1 ≤ 190) && decide (ms.1 + ms.2 ≤ 191) && decide (pk.1 + pk.2 ≤ 512)
    && cx.1 % 4096 = 0 && cx.2 % 4096 = 0 && decide (cx.1 + cx.2 ≤ 2 ^ 20)
    && decide (s.rdn (pgPart p) 0x50 ≤ pk.2 * 16384)
    && (List.range 16).all fun j => j = p ||
      ((List.range 3).all fun k => !rangeMeet (l.getD k (0, 0)) ((s.rangesOf j).getD k (0, 0)))

/-- A ring register's own test. -/
def ringRegOk (off : Nat) (v : Word) : Bool :=
  if off = 0x5C || off = 0x68 || off = 0x74 then pageAligned v
  else if off = 0x64 then isPow2In v.toNat 64 4096
  else if off = 0x70 || off = 0x7C then isPow2In v.toNat 64 65536
  else true

def State.storePart (s : State) (p off : Nat) (v : Word) : State :=
  let pg := pgPart p
  let new := s.wr pg off v
  if off = 0x40 then s.partCmd p v
  else
    s.when (!s.partBusy p && new.rangesOk p && ringRegOk off v) pg fun s =>
      let range := off = 0x48 || off = 0x54 || off = 0x58
      let changed := range && s.rd pg off ≠ v
      let s := s.wr pg off v
      let s := if range || off = 0x4C then s.modPart p fun q => { q with scrubOk := false } else s
      if changed then s.placeAct (.uncommit p) else s

/-- What an accepted write of a block-specific register does. -/
def State.regStore (s : State) (pg off : Nat) (v : Word) : State :=
  match pageKind pg with
  | .global => s.storeGlobal off v
  | .gaffer => s.storeGaffer off v
  | .clapper => s.storeClapper off v
  | .sched => s.storeSched off v
  | .sec => s.storeSec pg off v
  | .twin => s.storeTwin off v
  | .cont => s.storePort 8 off v
  | .rehearsal => s.storeReh off v
  | .dailies => s.storeDailies off v
  | .port => s.storePort (pg - 0x18) off v
  | .mag => s.storeMag (pg - 0x20) off v
  | .park => s.storeParkReg off v
  | .channel => s.chCmd (pg - 0x30) v
  | .tcctx => s.ctxCmd (pg - 0x51) v
  | .cutter => if off = 0x80 then s.katStart v else s.wr pg off v
  | .focus | .prime | .draw => s.storeUnit pg off v
  | .partition => s.storePart (pg - 0x200) off v
  | .none | .script | .splicer | .telecine | .framing | .d2d => s.wr pg off v

/-! ### Block resets (R184, R200, R220, R246, R254, R294, R342, R387, R391, R410) -/

/-- RC registers that a block reset clears; the scrub registers keep their values (R185). -/
def resetCounts (pg : Nat) : List Nat :=
  ((pageRows pg).flatMap fun r => if r.acc = .rc then (List.range r.n).map fun k => r.off + 4 * k else []).filter fun off =>
    !(pageKind pg = .mag && off = 0x78) && !(pageKind pg = .park && off = 0x74)

/-- The counts and, in a freeze, their held values are discarded (R258). -/
def State.clearCounts (s : State) (pg : Nat) : State :=
  let l := resetCounts pg
  let s := l.foldl (fun s off => s.wr pg off 0) s
  { s with reg := { s.reg with
      held := (l ++ [0x1C]).foldl (fun h off => mset (fun _ => 0) h (rk pg off) 0) s.reg.held } }

/-- A port's conversations are lost, and it takes a new salt (R294). -/
def State.resetPort (s : State) (q : Nat) : State :=
  let s := s.dropConvs fun c => c.port = q
  let s := { s with links := { s.links with inbox := s.links.inbox.filter fun m => !(m.port = q) } }
  if (s.port q).opened then ((s.modPort q fun t => { t with saltTx := none }).takeSalt q).announce q else s

/-- The script core restarts (R387). -/
def State.resetScript (s : State) : State :=
  { s with script := { s.script with stat := 1, resetPending := true, coreHalted := false, stalled := false, lateDue := false } }

/-- A context page's picture ends as RESTART_IDR ends it (R220). -/
def State.resetCtx (s : State) (c : Nat) : State :=
  if (s.tctx c).picsLeft = 0 && (s.tctx c).st = 0 then s else (s.restartIdr c).nextPicture

def State.resetChan (s : State) (c : Nat) : State :=
  if (s.chan c).st = 0 && !(s.chan c).eligible then s else s.abortChan c

/-- The link fails, every binding ends and the mailbox aborts its object (R241, R246). -/
def State.resetD2d (s : State) : State :=
  let s := s.failLink
  let s := { s with d2d := { s.d2d with doe := none, reportBody := none } }
  (List.range 16).foldl (fun s p =>
    -- as after a DOE abort, a BIND accepted before takes effect at its slate (R242, log entry 60)
    let bind := (s.part p).bindReq
    (s.endBinding p).modPart p fun q => { q with unbindReq := none, bindReq := bind }) s

/-- The divergence log and its counters go; the role and its configuration stay (R342). -/
def State.resetTwin (s : State) : State :=
  let s := (List.range 8).foldl (fun s k => s.wr pgTwin (0x98 + 4 * k) 0) s
  { s with twin := { s.twin with logHeld := false, divTick := 0 } }

/-- ARM and the counters go, the entries stay. -/
def State.resetReh (s : State) : State :=
  let s := (s.wr pgReh 0x40 0).wrForce pgReh 0x40 0
  { s with reh := { s.reh with armed := false, running := false } }

/-- What a block reset does to the block's work. -/
def State.resetWork (s : State) (pg : Nat) : State :=
  match pageKind pg with
  | .port => s.resetPort (pg - 0x18)
  | .cont => s.resetPort 8
  | .script => s.resetScript
  | .channel => s.resetChan (pg - 0x30)
  | .splicer => (List.range 32).foldl State.resetChan s
  | .tcctx => s.resetCtx (pg - 0x51)
  | .d2d => s.resetD2d
  | .twin => s.resetTwin
  | .rehearsal => s.resetReh
  | .dailies => { s with dly := { s.dly with recs := [], head := 0, dumpSt := 0, dumpCount := 0, dumping := [] } }
  | _ => s

/-- RST: the header's latches are cleared at once, RESET_DONE follows (R254). -/
def State.blockReset (s : State) (pg : Nat) : State :=
  let s := (s.resetWork pg).clearCounts pg
  s.modHdr pg fun h => { h with evt := 0, perr := 0, faddr := 0, finfo := 0, tenantFault := false, rstBusy := true }

def execResetDone (pg : Fin 4096) (s : State) : Out :=
  let s := s.begin
  .next (if (s.hdr pg.val).rstBusy then (s.modHdr pg.val fun h => { h with rstBusy := false }).raise pg.val evResetDone else s)

/-! ### The header (R252–R260) -/

/-- Pages whose ENABLE always reads 1 (R253). -/
def enableFixed (pg : Nat) : Bool :=
  match pageKind pg with
  | .global | .gaffer | .clapper | .sched | .script | .sec | .twin | .mag | .park | .d2d => true
  | _ => false

def State.enableWrite (s : State) (pg : Nat) (on : Bool) : State :=
  let h := s.hdr pg
  if on = h.enable then s
  else if h.lock then s.raise pg evLocked
  else if pageKind pg = .partition then s.partEnable (pg - 0x200) on
  else s.modHdr pg fun h => { h with enable := on }

/-- Must the page drop a write that takes ENABLE from 1 to 0 (R253)? -/
def State.enableHeld (s : State) (pg : Nat) (v : Word) : Bool :=
  let h := s.hdr pg
  !bit v 0 && h.enable && !h.lock && pageKind pg ≠ .partition && (enableFixed pg || s.heldByA pg)

def State.freezeWrite (s : State) (pg : Nat) (on : Bool) : State :=
  let h := s.hdr pg
  if on = h.freeze then s
  else
    let s := s.modHdr pg fun h => { h with freeze := on }
    if s.reg.snapHeld then s else if on then s.holdPage pg else s.dropHeld pg

/-- A write of BLK_CTRL; where R253 drops ENABLE = 0, the whole write is dropped. -/
def State.ctrlWrite (s : State) (pg : Nat) (v : Word) : State :=
  if !implemented pg || s.unreach pg then s
  else if s.enableHeld pg v then (s.raiseIf (v.toNat / 16 ≠ 0) pg evReserved).refuse pg
  else
    let s := s.raiseIf (v.toNat / 16 ≠ 0) pg evReserved
    let s := s.enableWrite pg (bit v 0)
    let s := if bit v 3 then s.modHdr pg fun h => { h with lock := true } else s
    let s := s.freezeWrite pg (bit v 2)
    if bit v 1 && !(s.hdr pg).rstBusy then s.blockReset pg else s

/-- BLK_EVT: each 1 clears its bit (R255). -/
def State.evtClear (s : State) (pg : Nat) (v : Word) : State :=
  let m := word (pageEvtMask pg)
  let s := s.modHdr pg fun h => { h with evt := h.evt &&& ~~~(v &&& m) }
  s.raiseIf ((v &&& ~~~m) ≠ 0) pg evReserved

/-- BLK_EVT_EN: a cause that becomes set sets the latch of vector 2 (R256, R243). -/
def State.evtEnable (s : State) (pg : Nat) (v : Word) : State :=
  let m := word (pageEvtMask pg)
  let was := (s.hdr pg).cause
  let s := s.modHdr pg fun h => { h with evtEn := v &&& m }
  let s := if (s.hdr pg).cause && !was then s.latchVec 2 else s
  s.raiseIf ((v &&& ~~~m) ≠ 0) pg evReserved

/-- BLK_EVT_SET (R257). -/
def State.evtSet (s : State) (pg : Nat) (v : Word) : State :=
  let m := word (pageEvtMask pg)
  let s := s.raiseIf ((v &&& ~~~m) ≠ 0) pg evReserved
  ((List.range 32).filter fun b => bit (v &&& m) b).foldl
    (fun s b => (s.raise pg b).modHdr pg fun h => { h with synth := true }) s

/-- A write of a header word. -/
def State.hdrWrite (s : State) (pg off : Nat) (v : Word) : State :=
  if !implemented pg || s.unreach pg then s
  else if off = 0x08 then s.ctrlWrite pg v
  else if off = 0x10 then s.evtClear pg v
  else if off = 0x14 then s.evtEnable pg v
  else if off = 0x18 then s.evtSet pg v
  else s.raiseIf (decide (0x30 ≤ off) && v ≠ 0) pg evReserved

/-- Bits of word w of an MSI-X table entry that a write can change: the address is a multiple of 4, and the vector
control holds the mask bit (log entry 23). -/
def msixMask (w : Nat) : Word := if w % 4 = 3 then 1 else if w % 4 = 0 then 0xFFFFFFFC else 0xFFFFFFFF

/-- A write of BAR2: only the MSI-X table stores it; a vector that it unmasks waits for the next guard (R228, R244). -/
def State.bar2Write (s : State) (o : Nat) (v : Word) : State :=
  if s.unreach pgD2d || decide (0x400 ≤ o) then s
  else
    ({ s with d2d := { s.d2d with msix := mset msixReset s.d2d.msix (o / 4) (v &&& msixMask (o / 4)) } } : State).sendFreed

/-- A 32-bit write of a register. -/
def State.writeReg (s : State) (pg off : Nat) (v : Word) : State :=
  if bar2Page ≤ pg then s.bar2Write ((pg - bar2Page) * 0x1000 + off) v
  else if off < 0x40 then s.hdrWrite pg off v else s.gated pg off v fun s w => s.regStore pg off w

/-! ### The rows -/

def execRegisterWrite (pg : Fin 4112) (w : Fin 1024) (v : Word) (s : State) : Out := .next (s.begin.writeReg pg.val (4 * w.val) v)

def execEnable (pg : Fin 4096) (v : Word) (s : State) : Out := .next (s.begin.ctrlWrite pg.val v)
def execRst (pg : Fin 4096) (v : Word) (s : State) : Out := .next (s.begin.ctrlWrite pg.val v)
def execFreeze (pg : Fin 4096) (v : Word) (s : State) : Out := .next (s.begin.ctrlWrite pg.val v)
def execOwnerLock (pg : Fin 4096) (v : Word) (s : State) : Out := .next (s.begin.ctrlWrite pg.val v)

/-- BLK_CTRL of PARTITION page p with another ENABLE. -/
def execPartitionEnable (p : Fin 16) (on : Bool) (s : State) : Out :=
  let s := s.begin
  .next (s.ctrlWrite (pgPart p.val) (setBit ((s.hdr (pgPart p.val)).ctrl &&& 0xC) 0 on))

/-- CELL_CTRL or PIPE_CTRL; a page of another kind has no FENCE, and nothing is written. -/
def execFence (pg : Fin 4096) (v : Word) (s : State) : Out :=
  let s := s.begin
  .next (match pageKind pg.val with
    | .prime | .draw | .focus => s.gated pg.val 0x40 v fun s w => s.fenceWrite pg.val w
    | _ => s)

def execBlkEvtSet (pg : Fin 4096) (v : Word) (s : State) : Out := .next (s.begin.hdrWrite pg.val 0x18 v)

/-- A write of BLK_EVT that carries FAULT_LATCHED. -/
def execFaultLatchRelease (pg : Fin 4096) (v : Word) (s : State) : Out := .next (s.begin.hdrWrite pg.val 0x10 (setBit v evLatched true))

def execSnap (s : State) : Out := .next (s.begin.gated pgGlobal 0x60 1 fun s w => s.snapWrite w)
def execRelease (s : State) : Out := .next (s.begin.gated pgGlobal 0x60 2 fun s w => s.snapWrite w)

def execMapCrcClr (c : Fin 224) (s : State) : Out :=
  .next (s.begin.gated (pgPrime c.val) 0x70 1 fun s w => s.storeUnit (pgPrime c.val) 0x70 w)

/-- A register read; an RC register is cleared as it is read (R13, R258, R262). -/
def execRcRead (pg : Fin 4112) (w : Fin 1024) (s : State) : Out :=
  let s := s.begin
  .next (if !s.regPath then s
    else
      let (v, s) := s.readReg pg.val (4 * w.val)
      s.emit (.readData (leBytes 4 v.toNat)))

/-! ### Other accesses (R12) -/

/-- BAR0's bytes, and BAR2's after them (R228). -/
def barSize : Nat := 2 ^ 24 + 2 ^ 16

/-- Write word k of an access of `d` at address `a`: in full, or not at all. -/
def State.writeWord (s : State) (a : Nat) (d : Bytes) (k : Nat) : State :=
  let w := a / 4 * 4 + 4 * k
  let pg := w / 0x1000
  if barSize ≤ w then s
  else if a ≤ w && w + 4 ≤ a + d.length then s.writeReg pg (w % 0x1000) (word (leAt d (w - a) 4))
  else if !implemented pg || s.unreach pg then s
  else s.raise pg evReserved

/-- Read word k. -/
def State.readWord (s : State) (a k : Nat) : Bytes × State :=
  let w := a / 4 * 4 + 4 * k
  if barSize ≤ w then (leBytes 4 0, s)
  else
    let (v, s) := s.readReg (w / 0x1000) (w % 0x1000)
    (leBytes 4 v.toNat, s)

/-- Words that an access of n bytes at a touches. -/
def wordCount (a n : Nat) : Nat := if n = 0 then 0 else (a + n - 1) / 4 - a / 4 + 1

def State.readWords (s : State) (a k n : Nat) : Bytes × State :=
  match n with
  | 0 => ([], s)
  | n + 1 =>
    let (b, s) := s.readWord a k
    let (r, s) := s.readWords a (k + 1) n
    (b ++ r, s)

/-- An access that is not one aligned 32-bit word; a read's data gives its length only. -/
def execNarrowAccess (write : Bool) (addr : Nat) (data : Bytes) (s : State) : Out :=
  let s := s.begin
  let n := wordCount addr data.length
  .next (if !s.regPath then s
    else if write then (List.range n).foldl (fun s k => s.writeWord addr data k) s
    else
      let (b, s) := s.readWords addr 0 n
      s.emit (.readData ((b.drop (addr % 4)).take data.length)))

end Sys2Proof.Machine
end

