-- ==== Sys2Proof/Machine/Dispatch.lean ====
section
/-! DEFINITION. One arm per command: each is one call of the command's meaning. -/
namespace Sys2Proof.Machine

def exec (i : Instr) (s : State) : Host.Outcome State Fault Refusal :=
  match i with
  | .slate inst => Sys2Proof.Machine.execSlate inst s
  | .clapEdge inst falling => Sys2Proof.Machine.execClapEdge inst falling s
  | .holdoverSlate inst => Sys2Proof.Machine.execHoldoverSlate inst s
  | .clapLost => Sys2Proof.Machine.execClapLost s
  | .slateFrame inst f => Sys2Proof.Machine.execSlateFrame inst f s
  | .predictedSlate inst => Sys2Proof.Machine.execPredictedSlate inst s
  | .slateFrameLost => Sys2Proof.Machine.execSlateFrameLost s
  | .clapperConfigWrite r v => Sys2Proof.Machine.execClapperConfigWrite r v s
  | .reelLoad p slot r => Sys2Proof.Machine.execReelLoad p slot r s
  | .reelLoadComplete p slot => Sys2Proof.Machine.execReelLoadComplete p slot s
  | .classAReelStart => Sys2Proof.Machine.execClassAReelStart s
  | .reelUnload p slot r => Sys2Proof.Machine.execReelUnload p slot r s
  | .reelUnloadEffect p handle => Sys2Proof.Machine.execReelUnloadEffect p handle s
  | .reelResourcesFree p handle => Sys2Proof.Machine.execReelResourcesFree p handle s
  | .batchRun p slot r => Sys2Proof.Machine.execBatchRun p slot r s
  | .nop p slot r => Sys2Proof.Machine.execNop p slot r s
  | .badOpcode p slot r => Sys2Proof.Machine.execBadOpcode p slot r s
  | .ctxAdmit p slot r => Sys2Proof.Machine.execCtxAdmit p slot r s
  | .ctxStep p slot r => Sys2Proof.Machine.execCtxStep p slot r s
  | .ctxCancel p slot r => Sys2Proof.Machine.execCtxCancel p slot r s
  | .ctxPark p slot r => Sys2Proof.Machine.execCtxPark p slot r s
  | .ctxResume p slot r => Sys2Proof.Machine.execCtxResume p slot r s
  | .parkCopyDone idx res => Sys2Proof.Machine.execParkCopyDone idx res s
  | .resumeCopyDone idx res => Sys2Proof.Machine.execResumeCopyDone idx res s
  | .contextExpiry idx => Sys2Proof.Machine.execContextExpiry idx s
  | .itemStart id => Sys2Proof.Machine.execItemStart id s
  | .itemDone id inp => Sys2Proof.Machine.execItemDone id inp s
  | .cellParityHalt c k addr => Sys2Proof.Machine.execCellParityHalt c k addr s
  | .pipeFaultHalt f k addr => Sys2Proof.Machine.execPipeFaultHalt f k addr s
  | .mixContribution port => Sys2Proof.Machine.execMixContribution port s
  | .closedValues port => Sys2Proof.Machine.execClosedValues port s
  | .splicerFiring c => Sys2Proof.Machine.execSplicerFiring c s
  | .splicerListDone c => Sys2Proof.Machine.execSplicerListDone c s
  | .splicerChannelHalt c k write narrow addr => Sys2Proof.Machine.execSplicerChannelHalt c k write narrow addr s
  | .chCmdResume c => Sys2Proof.Machine.execChCmdResume c s
  | .chCmdAbort c => Sys2Proof.Machine.execChCmdAbort c s
  | .pictureDone c inst => Sys2Proof.Machine.execPictureDone c inst s
  | .sliceEmit c inst => Sys2Proof.Machine.execSliceEmit c inst s
  | .decodePictureStart x => Sys2Proof.Machine.execDecodePictureStart x s
  | .telecineContextHalt c k addr => Sys2Proof.Machine.execTelecineContextHalt c k addr s
  | .ctxCmdResume c => Sys2Proof.Machine.execCtxCmdResume c s
  | .ctxCmdRestartIdr c => Sys2Proof.Machine.execCtxCmdRestartIdr c s
  | .cueEdge o inst => Sys2Proof.Machine.execCueEdge o inst s
  | .linkDown l => Sys2Proof.Machine.execLinkDown l s
  | .retrain l => Sys2Proof.Machine.execRetrain l s
  | .retrainDone l => Sys2Proof.Machine.execRetrainDone l s
  | .addrErr l x => Sys2Proof.Machine.execAddrErr l x s
  | .diagGo m v => Sys2Proof.Machine.execDiagGo m v s
  | .scrub p => Sys2Proof.Machine.execScrub p s
  | .tenantChange p => Sys2Proof.Machine.execTenantChange p s
  | .counterBurnDone p burns => Sys2Proof.Machine.execCounterBurnDone p burns s
  | .scrubShareDone ctl ok => Sys2Proof.Machine.execScrubShareDone ctl ok s
  | .scrubDone p => Sys2Proof.Machine.execScrubDone p s
  | .prst p => Sys2Proof.Machine.execPrst p s
  | .partitionReset p => Sys2Proof.Machine.execPartitionReset p s
  | .prstDone p => Sys2Proof.Machine.execPrstDone p s
  | .partitionEnable p on => Sys2Proof.Machine.execPartitionEnable p on s
  | .fence pg v => Sys2Proof.Machine.execFence pg v s
  | .enable pg v => Sys2Proof.Machine.execEnable pg v s
  | .rst pg v => Sys2Proof.Machine.execRst pg v s
  | .resetDone pg => Sys2Proof.Machine.execResetDone pg s
  | .freeze pg v => Sys2Proof.Machine.execFreeze pg v s
  | .ownerLock pg v => Sys2Proof.Machine.execOwnerLock pg v s
  | .blkEvtSet pg v => Sys2Proof.Machine.execBlkEvtSet pg v s
  | .faultLatchRelease pg v => Sys2Proof.Machine.execFaultLatchRelease pg v s
  | .rcRead pg w => Sys2Proof.Machine.execRcRead pg w s
  | .narrowAccess write addr data => Sys2Proof.Machine.execNarrowAccess write addr data s
  | .registerWrite pg w v => Sys2Proof.Machine.execRegisterWrite pg w v s
  | .snap => Sys2Proof.Machine.execSnap s
  | .release => Sys2Proof.Machine.execRelease s
  | .mapCrcClr c => Sys2Proof.Machine.execMapCrcClr c s
  | .katGo => Sys2Proof.Machine.execKatGo s
  | .certDataRead => Sys2Proof.Machine.execCertDataRead s
  | .warmRst v => Sys2Proof.Machine.execWarmRst v s
  | .warmReset => Sys2Proof.Machine.execWarmReset s
  | .mrstN => Sys2Proof.Machine.execMrstN s
  | .powerOn straps => Sys2Proof.Machine.execPowerOn straps s
  | .startupStageDone o => Sys2Proof.Machine.execStartupStageDone o s
  | .screenTestDone r => Sys2Proof.Machine.execScreenTestDone r s
  | .fwFault => Sys2Proof.Machine.execFwFault s
  | .scriptLate => Sys2Proof.Machine.execScriptLate s
  | .firmwareRestarted => Sys2Proof.Machine.execFirmwareRestarted s
  | .verify => Sys2Proof.Machine.execVerify s
  | .install => Sys2Proof.Machine.execInstall s
  | .fwInstalled ok => Sys2Proof.Machine.execFwInstalled ok s
  | .svnCommit v => Sys2Proof.Machine.execSvnCommit v s
  | .enter => Sys2Proof.Machine.execEnter s
  | .wrapped => Sys2Proof.Machine.execWrapped s
  | .wake => Sys2Proof.Machine.execWake s
  | .woken => Sys2Proof.Machine.execWoken s
  | .evaluationSlate x => Sys2Proof.Machine.execEvaluationSlate x s
  | .domainReady d => Sys2Proof.Machine.execDomainReady d s
  | .junctionSample x => Sys2Proof.Machine.execJunctionSample x s
  | .tClear rung => Sys2Proof.Machine.execTClear rung s
  | .thermalTrip tj => Sys2Proof.Machine.execThermalTrip tj s
  | .feedPresent b => Sys2Proof.Machine.execFeedPresent b s
  | .feedBack b => Sys2Proof.Machine.execFeedBack b s
  | .feedLost b => Sys2Proof.Machine.execFeedLost b s
  | .holdup => Sys2Proof.Machine.execHoldup s
  | .feedOc b => Sys2Proof.Machine.execFeedOc b s
  | .domainOc d => Sys2Proof.Machine.execDomainOc d s
  | .refclkLost => Sys2Proof.Machine.execRefclkLost s
  | .refclkBack => Sys2Proof.Machine.execRefclkBack s
  | .clock fabric => Sys2Proof.Machine.execClock fabric s
  | .pmbusSilent => Sys2Proof.Machine.execPmbusSilent s
  | .operation write v => Sys2Proof.Machine.execOperation write v s
  | .clearFaults => Sys2Proof.Machine.execClearFaults s
  | .capability => Sys2Proof.Machine.execCapability s
  | .statusWord => Sys2Proof.Machine.execStatusWord s
  | .statusInput => Sys2Proof.Machine.execStatusInput s
  | .statusTemperature => Sys2Proof.Machine.execStatusTemperature s
  | .statusCml => Sys2Proof.Machine.execStatusCml s
  | .readVin => Sys2Proof.Machine.execReadVin s
  | .readIin => Sys2Proof.Machine.execReadIin s
  | .readTemperature1 => Sys2Proof.Machine.execReadTemperature1 s
  | .readTemperature2 => Sys2Proof.Machine.execReadTemperature2 s
  | .readTemperature3 => Sys2Proof.Machine.execReadTemperature3 s
  | .readPin => Sys2Proof.Machine.execReadPin s
  | .pmbusRevision => Sys2Proof.Machine.execPmbusRevision s
  | .mfrId => Sys2Proof.Machine.execMfrId s
  | .mfrModel => Sys2Proof.Machine.execMfrModel s
  | .mfrSerial => Sys2Proof.Machine.execMfrSerial s
  | .mfrPowerCap write v => Sys2Proof.Machine.execMfrPowerCap write v s
  | .mfrFeedA => Sys2Proof.Machine.execMfrFeedA s
  | .mfrFeedB => Sys2Proof.Machine.execMfrFeedB s
  | .mfrLevel => Sys2Proof.Machine.execMfrLevel s
  | .mfrStart => Sys2Proof.Machine.execMfrStart s
  | .pmbusUnsupported code => Sys2Proof.Machine.execPmbusUnsupported code s
  | .linkTraining r => Sys2Proof.Machine.execLinkTraining r s
  | .flitCrcError failed => Sys2Proof.Machine.execFlitCrcError failed s
  | .ideFail => Sys2Proof.Machine.execIdeFail s
  | .hdmCommit d base size => Sys2Proof.Machine.execHdmCommit d base size s
  | .cxlMemAccess m => Sys2Proof.Machine.execCxlMemAccess m s
  | .h2dSnoop => Sys2Proof.Machine.execH2dSnoop s
  | .getReport inst m => Sys2Proof.Machine.execGetReport inst m s
  | .report inst => Sys2Proof.Machine.execReport inst s
  | .bind inst m => Sys2Proof.Machine.execBind inst m s
  | .bound p => Sys2Proof.Machine.execBound p s
  | .unbind m => Sys2Proof.Machine.execUnbind m s
  | .unbound p => Sys2Proof.Machine.execUnbound p s
  | .getState m => Sys2Proof.Machine.execGetState m s
  | .doeAbort => Sys2Proof.Machine.execDoeAbort s
  | .portLinkUp q => Sys2Proof.Machine.execPortLinkUp q s
  | .portLinkDown q => Sys2Proof.Machine.execPortLinkDown q s
  | .salt f => Sys2Proof.Machine.execSalt f s
  | .saltAnnounce q => Sys2Proof.Machine.execSaltAnnounce q s
  | .macStorm q => Sys2Proof.Machine.execMacStorm q s
  | .openFrame f => Sys2Proof.Machine.execOpenFrame f s
  | .openAck f => Sys2Proof.Machine.execOpenAck f s
  | .data f => Sys2Proof.Machine.execData f s
  | .ack f => Sys2Proof.Machine.execAck f s
  | .probe f => Sys2Proof.Machine.execProbe f s
  | .close f => Sys2Proof.Machine.execClose f s
  | .closeAck f => Sys2Proof.Machine.execCloseAck f s
  | .reset f => Sys2Proof.Machine.execReset f s
  | .conversationOpenRequest q kind conv peer part => Sys2Proof.Machine.execConversationOpenRequest q kind conv peer part s
  | .conversationCloseRequest q kind conv peer => Sys2Proof.Machine.execConversationCloseRequest q kind conv peer s
  | .rto k => Sys2Proof.Machine.execRto k s
  | .ackDelay k => Sys2Proof.Machine.execAckDelay k s
  | .keepalive k => Sys2Proof.Machine.execKeepalive k s
  | .silence k => Sys2Proof.Machine.execSilence k s
  | .openRetry k => Sys2Proof.Machine.execOpenRetry k s
  | .forget k => Sys2Proof.Machine.execForget k s
  | .ptpSync inst m => Sys2Proof.Machine.execPtpSync inst m s
  | .ptpLost => Sys2Proof.Machine.execPtpLost s
  | .takeLate ch t => Sys2Proof.Machine.execTakeLate ch t s
  | .takeFilled ch t => Sys2Proof.Machine.execTakeFilled ch t s
  | .rushes q => Sys2Proof.Machine.execRushes q s
  | .verdictNotice => Sys2Proof.Machine.execVerdictNotice s
  | .bindingNotice => Sys2Proof.Machine.execBindingNotice s
  | .checkpoint => Sys2Proof.Machine.execCheckpoint s
  | .parkImage => Sys2Proof.Machine.execParkImage s
  | .checkpointRelease => Sys2Proof.Machine.execCheckpointRelease s
  | .contMessage inst => Sys2Proof.Machine.execContMessage inst s
  | .takeReleaseSensed inst => Sys2Proof.Machine.execTakeReleaseSensed inst s
  | .claimHoldoffExpiry inst => Sys2Proof.Machine.execClaimHoldoffExpiry inst s
  | .takeFault => Sys2Proof.Machine.execTakeFault s
  | .grave k => Sys2Proof.Machine.execGrave k s
  | .take => Sys2Proof.Machine.execTake s
  | .stand => Sys2Proof.Machine.execStand s
  | .yieldTake => Sys2Proof.Machine.execYieldTake s
  | .handover => Sys2Proof.Machine.execHandover s
  | .resync => Sys2Proof.Machine.execResync s
  | .cancelHandover => Sys2Proof.Machine.execCancelHandover s
  | .cancelTake => Sys2Proof.Machine.execCancelTake s
  | .handoverSlate low => Sys2Proof.Machine.execHandoverSlate low s
  | .contextRestore => Sys2Proof.Machine.execContextRestore s
  | .cutoverGapEnd => Sys2Proof.Machine.execCutoverGapEnd s
  | .cutoverSlow => Sys2Proof.Machine.execCutoverSlow s
  | .arm on => Sys2Proof.Machine.execArm on s
  | .rehearsalFiring e => Sys2Proof.Machine.execRehearsalFiring e s
  | .dump => Sys2Proof.Machine.execDump s
  | .dumpDone ok => Sys2Proof.Machine.execDumpDone ok s
  | .clear => Sys2Proof.Machine.execClear s
  | .tapInstruction k => Sys2Proof.Machine.execTapInstruction k s
  | .debugMemoryAccess write t d => Sys2Proof.Machine.execDebugMemoryAccess write t d s
  | .debugOpen w => Sys2Proof.Machine.execDebugOpen w s
  | .debugClose w => Sys2Proof.Machine.execDebugClose w s
  | .encodePictureStart x => Sys2Proof.Machine.execEncodePictureStart x s
  | .takeSenseLow => Sys2Proof.Machine.execTakeSenseLow s
  | .mrstNRelease => Sys2Proof.Machine.execMrstNRelease s
  | .parityWr l x => Sys2Proof.Machine.execParityWr l x s
  | .hot on k => Sys2Proof.Machine.execHot on k s
  | .backInvalidateResponse granule => Sys2Proof.Machine.execBackInvalidateResponse granule s
  | .droppedFrame q r => Sys2Proof.Machine.execDroppedFrame q r s
  | .ptpAnnounce m => Sys2Proof.Machine.execPtpAnnounce m s
  | .alertResponse => Sys2Proof.Machine.execAlertResponse s
  | .rngFail => Sys2Proof.Machine.execRngFail s
  | .rngOk => Sys2Proof.Machine.execRngOk s
  | .fwVerified => Sys2Proof.Machine.execFwVerified s
  | .katBlockDone => Sys2Proof.Machine.execKatBlockDone s

end Sys2Proof.Machine
end

