-- ==== Sys2Proof/Machine/Step.lean ====
section
/-! DEFINITION. One step takes the command at the front of the queue; an empty queue idles (log entry 1). -/
namespace Sys2Proof.Machine

/-- Take the front command and run it on the state with the queue's rest. -/
def step (s : State) : Host.Outcome State Fault Refusal :=
  match s.pending with
  | [] => .next s
  | c :: r => exec c { s with pending := r }

/-- The state with the command that a word spells at the front of its queue. -/
def State.withFetchWord (s : State) (nbits w : Nat) : State :=
  match Sys2Proof.decodeTableWord nbits w with
  | some c => { s with pending := c :: s.pending }
  | none => s

end Sys2Proof.Machine
end

