-- ==== Sys2Proof/Safety.lean ====
section
/-! DEFINITION. The terms in which statements about the block are made: the canonical form of its stores and registers,
standing events, a write that nothing turns away, and what raising events may change beside a command's own effect. -/
namespace Sys2Proof.Machine

/-! ### The canonical form -/

/-- Both stores list rising addresses and no byte that an unlisted address reads as. -/
def State.memOk (s : State) : Bool := Memory.wf s.stores.main && Memory.wf s.stores.park

/-- The register file is canonical: current values, values in force, headers and held values. -/
def State.regsOk (s : State) : Bool :=
  mwf regReset s.reg.cur && mwf regReset s.reg.force && mwf hdrReset s.reg.hdr && mwf (fun _ => 0) s.reg.held
  && mwf (fun _ => 0) s.reg.served

/-! ### Events -/

/-- Event `b` stands in the page's BLK_EVT. -/
def State.has (s : State) (pg b : Nat) : Bool := bit (s.hdr pg).evt b

/-- Registers that raising an event may count into: DLY_LOST and MSI_SENT. -/
def countsEvents (key : Nat) : Bool := decide (key = rk pgDailies 0x50) || decide (key = rk pgD2d 0x84)

/-- Two headers agree but for events and the fault latch. -/
def sameControls (a b : Hdr) : Prop :=
  a.enable = b.enable ∧ a.lock = b.lock ∧ a.freeze = b.freeze ∧ a.rstBusy = b.rstBusy ∧ a.evtEn = b.evtEn ∧ a.owner = b.owner

/-- `t` is `u` after events have been raised and faults latched, and nothing else has happened: event bits that stood
stand, the control fields of every header, every register but the two event counters, and everything outside the
headers, the vector latches, the interfaces' outputs and the Dailies are as in `u` (R252, R255, R243, R408). -/
structure AfterEvents (u t : State) : Prop where
  rest : t = { u with reg := t.reg, d2d := t.d2d, out := t.out, dly := t.dly }
  d2d : t.d2d = { u.d2d with latch := t.d2d.latch }
  force : t.reg.force = u.reg.force
  due : t.reg.due = u.reg.due
  held : t.reg.held = u.reg.held
  snap : t.reg.snapHeld = u.reg.snapHeld
  snapTick : t.reg.snapTick = u.reg.snapTick
  ctrl : ∀ pg, sameControls (u.hdr pg) (t.hdr pg)
  stands : ∀ pg b, b < 32 → u.has pg b = true → t.has pg b = true
  regs : ∀ pg off, countsEvents (rk pg off) = false → t.rd pg off = u.rd pg off

/-! ### Register writes -/

/-- A page takes the write of a value whole: it is not in a block reset, the register may be written, the value sets no reserved
bit, and OWNER_LOCK is 0 (R11, R254, R260). -/
def State.accepts (s : State) (pg off : Nat) (v : Word) : Bool :=
  !(s.hdr pg).rstBusy && !(s.hdr pg).lock &&
  match regRow pg off with
  | some r => !(r.acc = .ro || r.acc = .rc) && v &&& ~~~word r.mask = 0
  | none => false

/-- A BAR0 write that nothing turns away or alters: the page is implemented and reachable, and takes it (R228, R250). -/
def State.writable (s : State) (pg off : Nat) (v : Word) : Bool := implemented pg && !s.unreach pg && s.accepts pg off v

/-- An access reaches the page: it is implemented and its domain is on (R228, R250). -/
def State.reaches (s : State) (pg : Nat) : Bool := implemented pg && !s.unreach pg

/-- A value for BLK_CTRL that sets no reserved bit and agrees with the header but for field `k` (R252). -/
def ctrlBut (h : Hdr) (v : Word) (k : Nat) : Bool :=
  decide (v.toNat < 16) && (k = 0 || bit v 0 == h.enable) && (k = 1 || !bit v 1) && (k = 2 || bit v 2 == h.freeze)
    && (k = 3 || bit v 3 == h.lock)

/-! ### Frames -/

/-- A frame that MACsec admits on an open port whose link is up: its association has a key, its check value is right, its
packet number is new, no rehearsal drops it, and on the continuity port it comes from the twin (R25, R274–R277, R283). -/
def State.authentic (s : State) (r : RxFrame) : Bool :=
  (s.port r.port.val).opened && (s.port r.port.val).linkUp && r.icvOk &&
  !(decide (0 < (s.port r.port.val).dropNext) && r.f.typ = tyData) && (r.port.val ≠ 8 || s.isTwin r.f.src) &&
  match (s.port r.port.val).keys.find? fun k => k.an = r.an.val with
  | some k => k.accepts r.pn
  | none => false

/-- The state once MACsec has admitted a frame. -/
def State.admitted (s : State) (r : RxFrame) : State := ((s.begin.at r.inst).macsec r).2

/-- The far end that an answer addresses: the own initiator of the frame's conversation (R282). -/
def State.initiatorOf (s : State) (r : RxFrame) : Option Conv := s.findConv r.port.val r.f.kind r.f.conv r.f.src true

/-- The own responder of the frame's conversation (R282). -/
def State.responderOf (s : State) (r : RxFrame) : Option Conv := s.findConv r.port.val r.f.kind r.f.conv r.f.src false

/-- The command put a protocol frame of this type on port q. -/
def State.sent (t : State) (q ty : Nat) : Bool :=
  t.out.any fun o => match o with
    | .frame p f _ => p = q && f.typ = ty
    | _ => false

/-- The command put a RESET with this reason on port q (R280). -/
def State.sentReset (t : State) (q reason : Nat) : Bool :=
  t.out.any fun o => match o with
    | .frame p f _ => p = q && f.typ = tyReset && f.payload = beBytes 2 reason
    | _ => false

/-- Conversations have distinct numbers, all below the next free one. -/
def State.convsOk (s : State) : Bool :=
  decide ((s.links.convs.map fun c => c.id).Nodup) && s.links.convs.all fun c => decide (c.id < s.links.nextConv)

/-! ### Requests -/

/-- The command of the table that a request of an opcode is. -/
def requestRow (p : Fin 16) (slot : Nat) (r : Req) : Instr :=
  match r.opcode with
  | 0x01 => .reelLoad p slot r | 0x02 => .reelUnload p slot r | 0x10 => .ctxAdmit p slot r | 0x11 => .ctxStep p slot r
  | 0x12 => .ctxCancel p slot r | 0x13 => .ctxPark p slot r | 0x14 => .ctxResume p slot r | 0x20 => .batchRun p slot r
  | 0x3E => .nop p slot r | _ => .badOpcode p slot r

/-- The state once the sweep has read a slot (R44). -/
def State.readSlot (s : State) (p slot : Nat) : State := (s.begin.sweepRead p slot).2

/-- During the guard the sweep comes to a slot of the partition's table and finds the request there (R33, R44). -/
def State.comesTo (s : State) (p slot : Nat) (r : Req) : Bool :=
  s.sweeping && s.sweptPart p && s.resSlots p ≠ 0 && decide (slot < s.rdn (pgPart p) 0x64) && (s.begin.sweepRead p slot).1 = some r

/-- The sweep takes a request that it has come to: SEQ differs from the shadow, the core that it needs is up, the scoreboard
has room and the ring holds its two records (R44, R47, R49, R54). -/
def State.takesReq (s : State) (p slot : Nat) (r : Req) : Bool :=
  let u := s.readSlot p slot
  s.comesTo p slot r && r.seq ≠ s.shadowOf p slot && !(s.scriptDown && needsScript r)
    && !(u.boardFull && (r.cls = 2 || r.cls = 3)) && decide (2 ≤ u.room p)

/-- The state once the sweep has taken the slot's SEQ. -/
def State.tookSeq (s : State) (p slot : Nat) (r : Req) : State :=
  let s := s.readSlot p slot
  { s with sched := { s.sched with shadow := mset (fun _ => 0) s.sched.shadow (p * 4096 + slot) r.seq, swept := s.sched.swept + 1 } }

/-- The reason that a request's checks answer, 0 to accept, and the state once they are made (R38, R39, R44, R147). -/
def State.judged (s : State) (p slot : Nat) (r : Req) : Nat × State := (s.tookSeq p slot r).reqCheck p r

/-- The sweep takes the request and its checks answer `reason`. -/
def State.judges (s : State) (p slot : Nat) (r : Req) (reason : Nat) : Bool :=
  s.takesReq p slot r && (s.judged p slot r).1 = reason

/-- The commands of TWIN_CMD, with their bits (R318). -/
def twinRows : List (Instr × Nat) :=
  [(.take, 0), (.stand, 1), (.yieldTake, 2), (.handover, 3), (.resync, 4), (.cancelHandover, 5), (.cancelTake, 6)]

/-! ### Families of commands -/

/-- The commands of the Clapper and the time base. -/
def timingRow (c : Instr) : Bool :=
  match c with
  | .clapEdge _ _ | .holdoverSlate _ | .predictedSlate _ | .clapLost | .slateFrameLost | .clapperConfigWrite _ _
    | .slateFrame _ _ | .ptpSync _ _ | .ptpAnnounce _ | .ptpLost => true
  | _ => false

/-- The commands of ports and conversations that move no take data. -/
def linkRow (c : Instr) : Bool :=
  match c with
  | .portLinkUp _ | .portLinkDown _ | .salt _ | .saltAnnounce _ | .macStorm _ | .droppedFrame _ _ | .openFrame _
    | .openAck _ | .ack _ | .probe _ | .close _ | .closeAck _ | .reset _ | .conversationOpenRequest _ _ _ _ _
    | .conversationCloseRequest _ _ _ _ | .rto _ | .ackDelay _ | .keepalive _ | .silence _ | .openRetry _
    | .forget _ => true
  | _ => false

/-- The commands of the twin that move no store and no cue. -/
def twinRow (c : Instr) : Bool :=
  match c with
  | .takeReleaseSensed _ | .takeSenseLow | .claimHoldoffExpiry _ | .takeFault | .take | .stand | .yieldTake
    | .handover | .resync | .cancelHandover | .cancelTake | .handoverSlate _ | .verdictNotice | .bindingNotice
    | .cutoverGapEnd | .cutoverSlow | .grave _ => true
  | _ => false

/-- The commands of power, thermal events and the PMBus that touch no unit. -/
def powerRow (c : Instr) : Bool :=
  match c with
  | .feedPresent _ | .feedBack _ | .feedLost _ | .feedOc _ | .junctionSample _ | .tClear _ | .refclkLost
    | .refclkBack | .pmbusSilent | .enter | .wake | .operation _ _ | .mfrPowerCap _ _ | .clearFaults
    | .pmbusUnsupported _ | .alertResponse | .capability | .statusWord | .statusInput | .statusTemperature
    | .statusCml | .readVin | .readIin | .readTemperature1 | .readTemperature2 | .readTemperature3 | .readPin
    | .pmbusRevision | .mfrId | .mfrModel | .mfrSerial | .mfrFeedA | .mfrFeedB | .mfrLevel | .mfrStart => true
  | _ => false

/-- The commands of the seal, the attestation mailbox and the die-to-die link. -/
def sealRow (c : Instr) : Bool :=
  match c with
  | .rngFail | .rngOk | .fwVerified | .fwInstalled _ | .svnCommit _ | .debugOpen _ | .debugClose _ | .getReport _ _
    | .report _ | .bind _ _ | .bound _ | .unbind _ | .unbound _ | .getState _ | .doeAbort | .linkTraining _
    | .flitCrcError _ | .ideFail | .hdmCommit _ _ _ | .h2dSnoop | .backInvalidateResponse _ => true
  | _ => false

/-- The work of the module is untouched: its stores, its schedule, its contexts and its units. -/
def sameWork (s t : State) : Prop :=
  t.stores = s.stores ∧ t.sched = s.sched ∧ t.script = s.script ∧ t.units = s.units ∧ t.splicer = s.splicer ∧ t.tele = s.tele
    ∧ t.acts = s.acts

/-! ### PMBus -/

/-- The commands of the PMBus table that only read (R420). -/
def pmbusReads : List Instr :=
  [.capability, .statusWord, .statusInput, .statusTemperature, .statusCml, .readVin, .readIin, .readTemperature1,
   .readTemperature2, .readTemperature3, .readPin, .pmbusRevision, .mfrId, .mfrModel, .mfrSerial, .mfrFeedA, .mfrFeedB,
   .mfrLevel, .mfrStart]

/-- The transactions of the PMBus table. -/
def pmbusRow (c : Instr) : Bool :=
  pmbusReads.contains c ||
  match c with
  | .clearFaults | .operation _ _ | .mfrPowerCap _ _ | .pmbusUnsupported _ => true
  | _ => false

/-! ### Memory -/

/-- Every byte of the main store outside [a, a + n) reads as before. -/
def mainOutside (s t : State) (a n : Nat) : Prop :=
  ∀ b, b < a ∨ a + n ≤ b → t.rawMain b 1 = s.rawMain b 1

/-- A byte of the main store through the crypto stage, under the key that its granule has now. -/
def State.seenMain (s : State) (b : Nat) : Byte := (s.plainMain (b / 64)).getD (b % 64) 0

/-- What a debug read of the main store delivers: every byte with its parity, in plaintext where the granule is open to debug. -/
def State.debugNine (s : State) (l : List (Nat × Nat × Nat)) : List Nat :=
  l.flatMap fun x =>
    if s.clearMain (x.1 * 64) then nines (s.plainMain x.1) (s.badMainAt x.1) true x.2.1 x.2.2
    else nines (s.storedMain x.1) (s.badMainAt x.1) false x.2.1 x.2.2

end Sys2Proof.Machine
end

