-- ==== Sys2Proof/Certificates/Slice0/Obligations.lean ====
section
/-! DEFINITION. Statements about the block.  Each docstring names the rule of spec/ that it formalises, and says where a
clause is the model's own choice. -/

open Sys2Proof Sys2Proof.Machine

/-! ### The queue, reset and the invariants -/

/-- A step takes the command at the front of the queue and runs it on the state with the queue's rest; an empty queue
idles (log entry 1, the model's choice). -/
def Obligations.StepRunsFront : Prop :=
  (∀ (s : State) (c : Instr) (r : List Instr), s.pending = c :: r → step s = exec c { s with pending := r })
  ∧ ∀ s : State, s.pending = [] → step s = .next s

/-- No command touches the queue of waiting commands. -/
def Obligations.QueueFrame : Prop :=
  ∀ (c : Instr) (s t : State), exec c s = .next t → t.pending = s.pending

/-- After reset every common header holds its reset value: ENABLE 1 except on PARTITION pages, no lock, freeze, block
reset, event or event enable (R252); every register is stored with the Reset value of its table (R14), no slate is issued,
no partition is enabled or bound, no reel is loaded, no command waits and every descriptor is FREE. -/
def Obligations.ResetState : Prop :=
  (∀ pg : Nat, (State.reset.hdr pg).enable = !decide (pageKind pg = .partition) ∧ (State.reset.hdr pg).lock = false
      ∧ (State.reset.hdr pg).freeze = false ∧ (State.reset.hdr pg).rstBusy = false
      ∧ (State.reset.hdr pg).evt = 0 ∧ (State.reset.hdr pg).evtEn = 0)
  ∧ (∀ pg off : Nat, State.reset.rd pg off = regReset (rk pg off))
  ∧ State.reset.slatesOn = false ∧ State.reset.sched.reels = [] ∧ State.reset.pending = []
  ∧ (∀ p : Nat, (State.reset.part p).enabled = false ∧ (State.reset.part p).bound = false)
  ∧ ∀ i : Nat, (State.reset.desc i).state = 0

/-- The invariants hold at reset. -/
def Obligations.ResetMeetsInvariants : Prop :=
  State.reset.memOk = true ∧ State.reset.regsOk = true ∧ State.reset.convsOk = true

/-- Every step keeps both stores in their canonical form. -/
def Obligations.MemoryInvariant : Prop :=
  ∀ s t : State, s.memOk = true → step s = .next t → t.memOk = true

/-- Every step keeps the register file in its canonical form. -/
def Obligations.RegistersInvariant : Prop :=
  ∀ s t : State, s.regsOk = true → step s = .next t → t.regsOk = true

/-- Every step keeps the numbers of the conversations distinct and below the next free one. -/
def Obligations.ConversationInvariant : Prop :=
  ∀ s t : State, s.convsOk = true → step s = .next t → t.convsOk = true

/-- R345, R348, R353: no step lowers the tenancy counter or the security version floor, which fuses hold, and none raises
the counter by more than one. -/
def Obligations.FusesRise : Prop :=
  ∀ s t : State, step s = .next t →
    s.sec.counter ≤ t.sec.counter ∧ t.sec.counter ≤ s.sec.counter + 1 ∧ s.sec.svnFloor ≤ t.sec.svnFloor

/-- R312, R314, R315, R332: only the end of a claim's holdoff and a handover's slate drive TAKE. -/
def Obligations.TakeDriven : Prop :=
  ∀ (c : Instr) (s t : State), exec c s = .next t → s.twin.drive = false → t.twin.drive = true →
    (∃ i, c = .claimHoldoffExpiry i) ∨ ∃ l, c = .handoverSlate l

/-! ### The Clapper, the time base and the cues -/

/-- R28: within 2.5 ns of the instant its source set, the Clapper issues a slate.  The first one takes the tick number of
TICK_LOAD and each later one the next number; a member's takes the number that the slate frame announced.

R29, R31: an edge that the window accepts sets the next slate 40 ns after it (SLATE_DELAY later on a lead); an edge
outside the window, or a second one in it, is counted in EARLY_CNT and raises CLAP_EARLY, and sets nothing.  An edge of the other
direction, or one that no slate comes from, does nothing.

R30, R32: a missed edge gives a holdover slate at E(T) + W + 40 ns (SLATE_DELAY later on a lead), and a missing slate frame
a predicted slate at the announced instant plus P; each counts in MISS_CNT and raises its event.  Neither comes early, from
another source, or where the slate is due already.

R30, R32: after MISS_LIMIT missed slates in a row the source is lost, and CLAP_LOST or SLATE_LOST is raised, once. -/
def Obligations.ClapperSlates : Prop :=
  (∀ (inst : Nat) (s : State),
    (s.slateDue inst = true →
      ∃ t, exec (.slate inst) s = .next t ∧ t.clap.last = inst
        ∧ (s.src ≠ 2 → s.clap.first = true → t.clap.num = s.rd64 pgClapper 0x58)
        ∧ (s.src ≠ 2 → s.clap.first = false → t.clap.num = (s.clap.num + 1) % 2 ^ 64)
        ∧ (s.src = 2 → ∀ n, s.clap.nextTick = some n → t.clap.num = n))
    ∧ (s.slateDue inst = false → exec (.slate inst) s = .next (s.begin.at inst)))
  ∧ ((∀ (inst : Nat) (falling : Bool) (s : State), s.slatesOn = false ∨ s.src ≠ 1 ∨ falling ≠ s.edgeFalling →
    exec (.clapEdge inst falling) s = .next (s.begin.at inst))
  ∧ ∀ (inst : Nat) (s : State), s.slatesOn = true → s.src = 1 → s.reh.clapSkip = false →
    (s.clap.haveEdge = false →
      ∃ t, exec (.clapEdge inst s.edgeFalling) s = .next t
        ∧ t.clap.due = some (inst + lagT + s.delayT) ∧ t.clap.expect = inst ∧ t.clap.misses = 0 ∧ t.clap.lost = false)
    ∧ (s.clap.haveEdge = true → s.clap.winTaken = false → s.clap.due = none → s.clap.expect ≤ inst + s.winT →
        inst ≤ s.clap.expect + s.winT →
      ∃ t, exec (.clapEdge inst s.edgeFalling) s = .next t
        ∧ t.clap.due = some (inst + lagT + s.delayT) ∧ t.clap.expect = inst ∧ t.clap.misses = 0 ∧ t.clap.lost = false)
    ∧ (s.clap.haveEdge = true → (s.clap.winTaken = true ∨ s.clap.due ≠ none ∨ inst + s.winT < s.clap.expect ∨ s.clap.expect + s.winT < inst) →
      ∃ t, exec (.clapEdge inst s.edgeFalling) s = .next t
        ∧ AfterEvents ((s.at inst).count pgClapper 0x70 1) t ∧ t.has pgClapper 10 = true))
  ∧ ((∀ (inst : Nat) (s : State),
    (s.slatesOn = false ∨ s.clap.due ≠ none ∨ s.src ≠ 1 ∨ s.clap.haveEdge = false ∨ inst < s.clap.expect + s.winT →
      exec (.holdoverSlate inst) s = .next (s.begin.at inst))
    ∧ (s.slatesOn = false ∨ s.clap.due ≠ none ∨ s.src ≠ 2 ∨ s.clap.first = true
        ∨ inst + 2 * tUs < s.instantOf s.predictedNs →
      exec (.predictedSlate inst) s = .next (s.begin.at inst)))
  ∧ ∀ (inst : Nat) (s : State), s.slatesOn = true → s.clap.due = none →
    (s.src = 1 → s.clap.haveEdge = true → s.clap.expect + s.winT ≤ inst →
      ∃ t, exec (.holdoverSlate inst) s = .next t ∧ t.has pgClapper 8 = true
        ∧ t.clap = { s.clap with due := some (s.clap.expect + s.winT + lagT + s.delayT), nextHold := true,
                                 misses := s.clap.misses + 1, locked := false, frameSent := true }
        ∧ t.rd pgClapper 0x6C = satAdd (s.rd pgClapper 0x6C) 1)
    ∧ (s.src = 2 → s.clap.first = false → s.instantOf s.predictedNs ≤ inst + 2 * tUs →
      ∃ t, exec (.predictedSlate inst) s = .next t ∧ t.has pgClapper 11 = true
        ∧ AfterEvents (({ s.at inst with clap := { s.clap with
            due := some (s.instantOf s.predictedNs), nextPred := true, announced := s.predictedNs,
            misses := s.clap.misses + 1, locked := false } } : State).count pgClapper 0x6C 1) t))
  ∧ ((∀ s : State,
    (s.slatesOn = false ∨ s.clap.lost = true ∨ s.clap.misses < s.missLimit ∨ s.src ≠ 1 → exec .clapLost s = .next s.begin)
    ∧ (s.slatesOn = false ∨ s.clap.lost = true ∨ s.clap.misses < s.missLimit ∨ s.src ≠ 2 →
      exec .slateFrameLost s = .next s.begin))
  ∧ ∀ s : State, s.slatesOn = true → s.clap.lost = false → s.missLimit ≤ s.clap.misses →
    (s.src = 1 → ∃ t, exec .clapLost s = .next t
      ∧ AfterEvents { s with clap := { s.clap with lost := true } } t ∧ t.has pgClapper 9 = true)
    ∧ (s.src = 2 → ∃ t, exec .slateFrameLost s = .next t
      ∧ AfterEvents { s with clap := { s.clap with lost := true } } t ∧ t.has pgClapper 12 = true))

/-- R31: a write of a Clapper register that its condition admits is stored; while slates are issued it is due for the next
slate and its value in force stays, and without slates it is in force at once.  SRC 3 is stored as 0, with RESERVED_WRITE.
A value that its condition refuses is dropped with PERIOD_REFUSED. -/
def Obligations.ClapperConfig : Prop :=
  ∀ (r : ClapReg) (v : Word) (s : State), s.writable pgClapper (clapOff r) v = true →
    (s.clapRefuses r v = false → ∃ t w, exec (.clapperConfigWrite r v) s = .next t ∧ t.rd pgClapper (clapOff r) = w
        ∧ (w = if r = .ctrl ∧ field v 1 2 = 3 then setField v 1 2 0 else v)
        ∧ (r = .ctrl → field v 1 2 = 3 → t.has pgClapper evReserved = true)
        ∧ (s.slatesOn = true → t.fo pgClapper (clapOff r) = s.fo pgClapper (clapOff r)
            ∧ t.reg.due = s.reg.due ++ [rk pgClapper (clapOff r)])
        ∧ (s.slatesOn = false → t.fo pgClapper (clapOff r) = w ∧ t.reg.due = s.reg.due))
    ∧ (s.clapRefuses r v = true →
      ∃ t, exec (.clapperConfigWrite r v) s = .next t ∧ AfterEvents s t ∧ t.has pgClapper 14 = true)

/-- R32, R300: a slate frame that the member accepts sets the next slate at the 1588 instant and with the number it announces, raising
SLATE_CONFLICT where its period is not the member's; a frame of a lower take epoch is stale; a later copy of the accepted
tick is counted in SLATE_DUP_CNT, sets nothing, and raises SLATE_CONFLICT where it differs at an equal take epoch.  A frame that
is no slate frame raises PROTO_ERR, a port without SLATE_RX drops and counts it, and it sets nothing of a module that takes its
slates elsewhere, from another endpoint than the lead and its twin, or for a tick that has passed. -/
def Obligations.SlateFrames : Prop :=
  (∀ (inst : Nat) (f : RxFrame) (s : State), s.authentic f = true → f.f.formed tyDatagram = true →
    let lead : Prop := f.f.src = s.leadId ∨ s.clap.leadTwin = some f.f.src
    (f.f.kind ≠ 2 ∨ slateFormed f.f = false →
      ∃ t, exec (.slateFrame inst f) s = .next t ∧ t.clap = s.clap ∧ t.has (pgPort f.port.val) 25 = true)
    ∧ (f.f.kind = 2 → slateFormed f.f = true →
      (s.portCtl f.port.val 2 = false → ∃ t, exec (.slateFrame inst f) s = .next t ∧ t.clap = s.clap
        ∧ t.rd (pgPort f.port.val) 0x90 = satAdd (s.rd (pgPort f.port.val) 0x90) 1)
      ∧ (s.portCtl f.port.val 2 = true → s.slatesOn = false ∨ s.src ≠ 2 ∨ s.reh.slateSkip = true ∨ ¬ lead
          ∨ (s.clap.frameEpoch ≤ beAt f.f.payload 24 4 ∧ (∀ a, s.clap.accepted = some a → a.1 ≠ f.f.msg)
              ∧ (s.clap.first = false ∧ f.f.msg ≤ s.clap.num ∨ s.clap.due ≠ none)) →
        ∃ t, exec (.slateFrame inst f) s = .next t ∧ t.clap = s.clap)))
  ∧ ∀ (inst : Nat) (f : RxFrame) (s : State), s.authentic f = true → f.f.formed tyDatagram = true → f.f.kind = 2 →
    slateFormed f.f = true → s.portCtl f.port.val 2 = true → s.slatesOn = true → s.src = 2 → s.reh.slateSkip = false →
    (f.f.src = s.leadId ∨ s.clap.leadTwin = some f.f.src) →
    (s.clap.frameEpoch ≤ beAt f.f.payload 24 4 → (∀ a, s.clap.accepted = some a → a.1 ≠ f.f.msg) →
        (s.clap.first = false → s.clap.num < f.f.msg) → s.clap.due = none →
      ∃ t, exec (.slateFrame inst f) s = .next t ∧ t.clap.due = some (s.instantOf (frameNs f.f.payload))
        ∧ t.clap.nextTick = some f.f.msg ∧ t.clap.misses = 0 ∧ t.clap.frameEpoch = beAt f.f.payload 24 4
        ∧ (beAt f.f.payload 20 4 ≠ s.periodUs → t.has (pgPort f.port.val) 23 = true))
    ∧ (beAt f.f.payload 24 4 < s.clap.frameEpoch →
      ∃ t, exec (.slateFrame inst f) s = .next t ∧ t.clap = s.clap ∧ t.has (pgPort f.port.val) 12 = true)
    ∧ ∀ a, s.clap.accepted = some a → a.1 = f.f.msg → s.clap.frameEpoch ≤ beAt f.f.payload 24 4 →
      ∃ t, exec (.slateFrame inst f) s = .next t ∧ t.clap = s.clap
        ∧ t.rd (pgPort f.port.val) 0xA8 = satAdd (s.rd (pgPort f.port.val) 0xA8) 1
        ∧ (a.2.2.2.2 = beAt f.f.payload 24 4 →
            (a.2.1 ≠ frameNs f.f.payload ∨ a.2.2.1 ≠ beAt f.f.payload 20 4 ∨ a.2.2.2.1 ≠ f.f.src) →
            t.has (pgPort f.port.val) 23 = true)

/-- R272: the time base locks when the 16th Sync in a row lies within ±20 ns, and a locked one unlocks, with PTP_LOST on
the selected port, when an offset exceeds ±50 ns or the Syncs stop.  That the locking Sync sets the clock to the transmitter's
time, any step back being made up in OFFSET, and that each later one takes its measured offset off it, is the model's
choice (log entry 9).  A Sync on a port without PTP, of another domain or not selected does nothing.

R271: an Announce selects, among the ports that PTP runs on, one of the best rank heard; one on a port without PTP, or of
another domain, does nothing. -/
def Obligations.TimeBase : Prop :=
  ((∀ (inst : Nat) (m : SyncMsg) (s : State), s.ptpOn m.port.val m.domain = false ∨ s.ptp.port ≠ some m.port.val →
    exec (.ptpSync inst m) s = .next (s.begin.at inst))
  ∧ (∀ s : State, s.ptp.locked = false → exec .ptpLost s = .next s.begin)
  ∧ (∀ (inst : Nat) (m : SyncMsg) (s : State), s.ptpOn m.port.val m.domain = true → s.ptp.port = some m.port.val →
    (s.ptp.locked = false → -20 ≤ m.offset → m.offset ≤ 20 → s.ptp.good < 15 →
      ∃ t, exec (.ptpSync inst m) s = .next t ∧ t.ptp.locked = false ∧ t.ptp.good = s.ptp.good + 1)
    ∧ (s.ptp.locked = false → -20 ≤ m.offset → m.offset ≤ 20 → 15 ≤ s.ptp.good →
      ∃ t, exec (.ptpSync inst m) s = .next t ∧ t.ptp.locked = true ∧ t.ptp.base = m.time ∧ t.ptp.mark = max s.now inst
        ∧ t.clap.stepBack = s.clap.stepBack + (s.clock1588 (max s.now inst) - m.time))
    ∧ (s.ptp.locked = false → (m.offset < -20 ∨ 20 < m.offset) →
      ∃ t, exec (.ptpSync inst m) s = .next t ∧ t.ptp.locked = false ∧ t.ptp.good = 0)
    ∧ (s.ptp.locked = true → -50 ≤ m.offset → m.offset ≤ 50 →
      ∃ t, exec (.ptpSync inst m) s = .next t ∧ t.ptp.locked = true ∧ t.ptp.mark = max s.now inst
        ∧ t.ptp.base = ((s.clock1588 (max s.now inst) : Int) - m.offset).toNat ∧ t.clap = s.clap)
    ∧ (s.ptp.locked = true → (m.offset < -50 ∨ 50 < m.offset) →
      ∃ t, exec (.ptpSync inst m) s = .next t ∧ t.has (pgPort m.port.val) 24 = true
        ∧ AfterEvents { s.at inst with ptp := { s.ptp with offset := m.offset, locked := false, good := 0 } } t))
  ∧ ∀ (q : Nat) (s : State), s.ptp.locked = true → s.ptp.port = some q →
    ∃ t, exec .ptpLost s = .next t ∧ t.has (pgPort q) 24 = true
      ∧ AfterEvents { s with ptp := { s.ptp with locked := false, good := 0 } } t)
  ∧ ((∀ (m : AnnounceMsg) (s : State), s.ptpOn m.port.val m.domain = false → exec (.ptpAnnounce m) s = .next s.begin)
  ∧ ∀ (m : AnnounceMsg) (s : State), s.ptpOn m.port.val m.domain = true →
    ∃ t q r, exec (.ptpAnnounce m) s = .next t ∧ t.ptp.port = some q ∧ (q, r) ∈ t.ptp.ranks
      ∧ bit (s.rd (pgPort q) 0x6C) 0 = true
      ∧ (∀ e ∈ t.ptp.ranks, bit (s.rd (pgPort e.1) 0x6C) 0 = true → r ≤ e.2)
      ∧ t.ptp.locked = s.ptp.locked ∧ t.reg = s.reg)

/-- R53: the first edge due on an output is placed once: it and every edge of the same instant leave the queue, the one
scheduled last sets the level, and the pins follow only while the module drives TAKE; in a cut-over gap the edges are
dropped and counted in CUE_DROPPED (R334).  With no edge due nothing is placed. -/
def Obligations.CueEdges : Prop :=
  (∀ (o : Fin 8) (inst : Nat) (s : State), (∀ e ∈ s.cueQueue o.val, s.edgeDue inst e = false) →
    exec (.cueEdge o inst) s = .next (s.begin.at inst))
  ∧ ∀ (o : Fin 8) (inst : Nat) (s : State) (e : Cue), e ∈ s.cueQueue o.val → s.edgeDue inst e = true →
    (∀ x ∈ s.cueQueue o.val, s.edgeDue inst x = true → cueBefore x e = false) →
    ∃ t, exec (.cueEdge o inst) s = .next t
      ∧ t.cueQueue o.val = (s.cueQueue o.val).filter (fun x => !(x.slate = e.slate && x.off = e.off))
      ∧ ((s.cueQueue o.val).filter (fun x => x.slate = e.slate && x.off = e.off)).getLast?.map (fun x => x.level)
          = some (mget (fun _ => false) t.sched.cueLevel o.val)
      ∧ (s.cueEn = false ∨ s.twin.gap = true → t.twin = s.twin)
      ∧ (s.cueEn = true → s.twin.gap = false → t.twin = { s.twin with pins := t.cueTarget })
      ∧ (s.twin.gap = true → t.rd pgTwin 0x84
          = satAdd (s.rd pgTwin 0x84) (countIf (fun x => x.slate = e.slate && x.off = e.off) (s.cueQueue o.val)))

/-! ### Requests and reels -/

/-- R44: a request whose checks answer a reason is refused: its SEQ is taken, and but for a CTX_STEP and a BATCH_RUN, whose rows
also dispatch what waits, one record is written to the result ring, no completion is reserved, and no reel, load, batch, run
or copy begins.

R33, R44, R54, R47: what the sweep does not take.  Outside the guard, and of a partition that is not swept, a request's row
changes nothing (log entry 12); in the guard the slot is read, and no more is done where the record there is another, where its
SEQ has been taken before, and where a context request finds the script core down; a ring with room for less than two records
leaves the request in its slot and raises RESULT_RING_FULL.

R43, R46: a NOP is accepted and completes at once: two records, and nothing stays reserved; an unknown opcode is
refused with BAD_OPCODE, whatever the rest of the request holds. -/
def Obligations.SweepOutcomes : Prop :=
  (∀ (p : Fin 16) (slot reason : Nat) (r : Req) (s : State), s.judges p.val slot r reason = true → reason ≠ 0 →
    ∃ t, exec (requestRow p slot r) s = .next t ∧ t.shadowOf p.val slot = r.seq
      ∧ (r.opcode ≠ 0x11 → r.opcode ≠ 0x20 → t.produced p.val = s.produced p.val + 1
          ∧ t.reservedOf p.val = s.reservedOf p.val ∧ t.sched.reels = s.sched.reels ∧ t.sched.loads = s.sched.loads
          ∧ t.sched.batches = s.sched.batches ∧ t.script.runs = s.script.runs ∧ t.script.copies = s.script.copies))
  ∧ (∀ (p : Fin 16) (slot : Nat) (r : Req) (s : State), r.opcode ≠ 0x11 → r.opcode ≠ 0x20 →
    (s.sweeping = false ∨ s.sweptPart p.val = false → exec (requestRow p slot r) s = .next s.begin)
    ∧ (∀ x, s.comesTo p.val slot x = true → x ≠ r → exec (requestRow p slot r) s = .next (s.readSlot p.val slot))
    ∧ (s.comesTo p.val slot r = true →
        (r.seq = s.shadowOf p.val slot ∨ (s.scriptDown = true ∧ needsScript r = true) →
          exec (requestRow p slot r) s = .next (s.readSlot p.val slot))
        ∧ (r.seq ≠ s.shadowOf p.val slot → (s.scriptDown = false ∨ needsScript r = false) →
            ((s.readSlot p.val slot).boardFull = false ∨ (r.cls ≠ 2 ∧ r.cls ≠ 3)) → (s.readSlot p.val slot).room p.val < 2 →
          ∃ t, exec (requestRow p slot r) s = .next t ∧ t.has pgSched 11 = true ∧ t.shadowOf p.val slot = s.shadowOf p.val slot
            ∧ t.stores = (s.readSlot p.val slot).stores)))
  ∧ (∀ (p : Fin 16) (slot : Nat) (r : Req) (s : State), s.takesReq p.val slot r = true →
    (r.opcode = 0x3E → (r.cls = 2 ∨ r.cls = 3) → r.rsvd = 0 →
      ∃ t, exec (.nop p slot r) s = .next t ∧ t.shadowOf p.val slot = r.seq ∧ t.produced p.val = s.produced p.val + 2
        ∧ t.reservedOf p.val = s.reservedOf p.val ∧ t.script = s.script ∧ t.sched.reels = s.sched.reels)
    ∧ (knownOp r.opcode = false →
      ∃ t, exec (.badOpcode p slot r) s = .next t ∧ t.shadowOf p.val slot = r.seq ∧ t.produced p.val = s.produced p.val + 1
        ∧ t.reservedOf p.val = s.reservedOf p.val ∧ t.script = s.script ∧ t.sched.reels = s.sched.reels))

/-- R40, R41: an accepted REEL_LOAD is a load of this slate; an accepted unload sets the slate U at which the reel stops, the
later of the sweep's slate and STOP_TICK, and of several unloads the earliest U (log entry 88); one of a class B or class C reel
whose slate U is the sweep's own frees the handle at once, with the completion of each unload.  R43: an accepted BATCH_RUN is
outstanding.

R144, R157, R159: what an accepted context request starts.  CTX_ADMIT makes the context ADMITTED at position 0 with its
cache area; CTX_STEP records the run in the descriptor; CTX_PARK notes the image's park granules and CTX_RESUME clears the
deadline, and each starts its copy.

R146, R150, R155: an accepted class B CTX_CANCEL.  Of a run with no step in flight it ends the run as CANCELLED: the run's
completion and its own follow at once; of one with a step in flight it is noted, and completes with the run; with nothing to
cancel it completes at once, and so does one that meets a copy, which RETIRE marks so that the copy's end retires the context.
RETIRE retires the context with cause CANCELLED.

R155: an accepted class C CTX_CANCEL that finds no BATCH_RUN with its slot, SEQ and reel completes at once; one that finds
it cancels it, and where no item of the batch is running or halted the batch ends there, with its completion and the cancel's. -/
def Obligations.RequestsAccepted : Prop :=
  (∀ (p : Fin 16) (slot : Nat) (r : Req) (s : State), s.judges p.val slot r 0 = true →
    (r.opcode = 0x01 →
      ∃ t, exec (.reelLoad p slot r) s = .next t ∧ t.shadowOf p.val slot = r.seq ∧ t.produced p.val = s.produced p.val + 1
        ∧ t.reservedOf p.val = s.reservedOf p.val + 1 ∧ t.sched.reels = s.sched.reels
        ∧ t.sched.loads = s.sched.loads ++ [{ p := p.val, slot := slot, req := r, at' := s.clap.num }])
    ∧ (r.opcode = 0x02 → ∀ x, s.findReel p.val r.handle = some x →
        (x.cls = 1 ∨ s.clap.num < r.tick →
          ∃ t, exec (.reelUnload p slot r) s = .next t ∧ t.shadowOf p.val slot = r.seq
            ∧ t.produced p.val = s.produced p.val + 1 ∧ t.reservedOf p.val = s.reservedOf p.val + 1
            ∧ t.findReel p.val r.handle = some { x with
                unloadAt := some (match x.unloadAt with
                  | some v => min (max s.clap.num r.tick) v
                  | none => max s.clap.num r.tick)
                unloadReqs := x.unloadReqs ++ [(slot, r)], cueFlush := x.cueFlush || r.flags.testBit 0 })
        ∧ (x.cls ≠ 1 → r.tick ≤ s.clap.num →
          ∃ t, exec (.reelUnload p slot r) s = .next t ∧ t.shadowOf p.val slot = r.seq
            ∧ t.produced p.val = s.produced p.val + 2 + x.unloadReqs.length ∧ t.findReel p.val r.handle = none))
    ∧ (r.opcode = 0x20 →
      ∃ t, exec (.batchRun p slot r) s = .next t ∧ t.shadowOf p.val slot = r.seq
        ∧ ∃ b ∈ t.sched.batches, b.p = p.val ∧ b.slot = slot ∧ b.req = r))
  ∧ (∀ (p : Fin 16) (slot : Nat) (r : Req) (s : State), s.judges p.val slot r 0 = true → s.script.stalled = false →
    (r.opcode = 0x10 →
      ∃ t, exec (.ctxAdmit p slot r) s = .next t ∧ t.produced p.val = s.produced p.val + 2
        ∧ (t.desc r.handle).state = 1 ∧ (t.desc r.handle).pos = 0 ∧ (t.desc r.handle).step = 0
        ∧ (t.desc r.handle).hasLast = false ∧ (t.desc r.handle).reel = r.arg0 ∧ (t.desc r.handle).cacheAddr = r.addr1
        ∧ (t.desc r.handle).cacheLen = r.len1 * 4096)
    ∧ (r.opcode = 0x11 →
      ∃ t, exec (.ctxStep p slot r) s = .next t ∧ t.shadowOf p.val slot = r.seq ∧ (t.desc r.handle).runSeq = r.seq
        ∧ (t.desc r.handle).runSlot = slot ∧ (t.desc r.handle).runOp = 0x11 ∧ (t.desc r.handle).runOut = r.addr1)
    ∧ (r.opcode = 0x13 →
      ∃ t, exec (.ctxPark p slot r) s = .next t ∧ t.produced p.val = s.produced p.val + 1
        ∧ (t.desc r.handle).state = 3 ∧ (t.desc r.handle).run = true
        ∧ (t.desc r.handle).parkGran = ceilDiv ((s.judged p.val slot r).2.desc r.handle).imageLen parkGran
        ∧ t.script.copies = s.script.copies ++ [{ p := p.val, idx := r.handle, slot := slot, req := r, resume := false }])
    ∧ (r.opcode = 0x14 →
      ∃ t, exec (.ctxResume p slot r) s = .next t ∧ t.produced p.val = s.produced p.val + 1
        ∧ (t.desc r.handle).state = 4 ∧ (t.desc r.handle).run = true ∧ (t.desc r.handle).deadline = 0
        ∧ t.script.copies = s.script.copies ++ [{ p := p.val, idx := r.handle, slot := slot, req := r, resume := true }]))
  ∧ (∀ (p : Fin 16) (slot : Nat) (r : Req) (s : State), s.judges p.val slot r 0 = true → s.script.stalled = false →
    r.opcode = 0x12 → r.cls = 2 →
    let d := (s.judged p.val slot r).2.desc r.handle
    let retire := r.flags.testBit 0
    ∃ t, exec (.ctxCancel p slot r) s = .next t ∧ t.shadowOf p.val slot = r.seq
      ∧ (∀ run, s.runOf p.val r.handle = some run → run.cancel = none →
          (run.flying = true → t.produced p.val = s.produced p.val + 1
            ∧ ((t.runOf p.val r.handle).bind fun q => q.cancel) = some (r.seq, slot, r.tag, retire))
          ∧ (run.flying = false → t.produced p.val = s.produced p.val + 3 ∧ t.runOf p.val r.handle = none
            ∧ (t.desc r.handle).endCode = endCancel ∧ (t.desc r.handle).run = false
            ∧ (retire = true → (t.desc r.handle).state = 5 ∧ (t.desc r.handle).cause = 2)))
      ∧ (∀ run, s.runOf p.val r.handle = some run → run.cancel ≠ none →
          t.produced p.val = s.produced p.val + 2 ∧ t.script.runs = s.script.runs)
      ∧ (s.runOf p.val r.handle = none → t.produced p.val = s.produced p.val + 2
          ∧ t.script.copies = (s.script.copies.map fun (c : Copy) =>
              if c.p = p.val && c.idx = r.handle && retire then { c with cancelled := true } else c)
          ∧ ((s.script.copies.any fun c => c.p = p.val && c.idx = r.handle) = false →
              (t.desc r.handle).state = (if retire then 5 else d.state)
              ∧ (retire = true → d.state ≠ 5 → (t.desc r.handle).cause = 2))))
  ∧ (∀ (p : Fin 16) (slot : Nat) (r : Req) (s : State), s.judges p.val slot r 0 = true → r.opcode = 0x12 → r.cls = 3 →
    ((s.sched.batches.any fun b => b.p = p.val && b.slot = r.arg0) = false →
      ∃ t, exec (.ctxCancel p slot r) s = .next t ∧ t.produced p.val = s.produced p.val + 2 ∧ t.script = s.script
        ∧ t.sched.batches = s.sched.batches)
    ∧ ∀ b, (s.sched.batches.filter fun b => b.p = p.val && b.slot = r.arg0) = [b] → b.req.seq = r.arg1 →
        b.req.handle = r.handle → b.cancel = none → b.failed = false →
      ∃ t, exec (.ctxCancel p slot r) s = .next t
        ∧ (if (s.batchItems p.val r.arg0).any fun i => i.st = .running || i.st = .halted then
            t.produced p.val = s.produced p.val + 1
              ∧ (t.sched.batches.filter fun b => b.p = p.val && b.slot = r.arg0) = [{ b with cancel := some (r.seq, slot, r.tag) }]
          else t.produced p.val = s.produced p.val + 3
              ∧ (t.sched.batches.any fun b => b.p = p.val && b.slot = r.arg0) = false))

/-- R40: the work of an accepted load ends with one COMPLETED record and its reservation; where the image cannot be read or the
check fails, no reel is loaded; where it passes, the reel takes the lowest handle from 1 to 1,024 that no reel of the partition
holds or has held until this slate, and a class A reel starts at the later of this slate and START_TICK.

R40, R41: a class A reel takes its first tick at T0; an unload takes effect at U, when a class A reel stops and a class
B or class C reel goes, unless it is still in use (REEL_IN_USE); and a class A reel's handle is free from slate U + 2, with
the cue edges discarded where CUE_FLUSH asks for it.  Every accepted unload of the reel completes with it, none before U. -/
def Obligations.ReelLifetime : Prop :=
  (∀ (p : Fin 16) (slot : Nat) (l : Load) (s : State),
    (s.sched.loads.find? fun l => l.p = p.val && l.slot = slot && decide (l.at' < s.clap.num)) = some l →
    let rest := s.sched.loads.filter fun (x : Load) => !(x.p = l.p && x.slot = l.slot)
    let v := ({ s.begin with sched := { s.sched with loads := rest } } : State).readReel p.val l.req
    ∃ t, exec (.reelLoadComplete p slot) s = .next t ∧ t.sched.loads = rest ∧ t.produced p.val = s.produced p.val + 1
      ∧ t.reservedOf p.val = s.reservedOf p.val - 1
      ∧ (v.1 = none → t.sched.reels = s.sched.reels)
      ∧ ∀ im map, v.1 = some (im, map) →
          (v.2.loadCheck p.val l.req im map ≠ 0 → t.sched.reels = s.sched.reels)
          ∧ (v.2.loadCheck p.val l.req im map = 0 →
              ∃ h x, 1 ≤ h ∧ h ≤ 1024 ∧ s.findReel p.val h = none ∧ (p.val, h) ∉ s.sched.spent
                ∧ (∀ k, 1 ≤ k → k < h → s.findReel p.val k ≠ none ∨ (p.val, k) ∈ s.sched.spent)
                ∧ t.findReel p.val h = some x ∧ x.cls = l.req.cls ∧ x.unloadAt = none ∧ x.stopped = false
                ∧ x.loadTick = if l.req.cls = 1 then max s.clap.num l.req.tick else s.clap.num))
  ∧ ((∀ (r : Reel) (s : State), s.classA = some r → s.clap.num = r.loadTick → r.takes s.clap.num = true →
    (s.sched.ticks.any fun t => t.tick = s.clap.num) = false →
    ∃ t, exec .classAReelStart s = .next t
      ∧ t.sched.ticks = s.sched.ticks ++ [{ tick := s.clap.num, p := r.p, handle := r.handle }])
  ∧ (∀ (p : Fin 16) (h u : Nat) (r : Reel) (s : State), s.findReel p.val h = some r → r.unloadAt = some u →
      r.stopped = false →
      (s.clap.num < u → exec (.reelUnloadEffect p h) s = .next s.begin)
      ∧ (u ≤ s.clap.num → r.cls = 1 → ∃ t, exec (.reelUnloadEffect p h) s = .next t ∧ t.findReel p.val h = some { r with stopped := true }
        ∧ t.produced p.val = s.produced p.val)
      ∧ (u ≤ s.clap.num → r.cls ≠ 1 → s.reelInUse r = true → ∃ t, exec (.reelUnloadEffect p h) s = .next t
        ∧ t.findReel p.val h = some { r with unloadAt := none, unloadReqs := [] }
        ∧ t.produced p.val = s.produced p.val + r.unloadReqs.length)
      ∧ (u ≤ s.clap.num → r.cls ≠ 1 → s.reelInUse r = false → ∃ t, exec (.reelUnloadEffect p h) s = .next t
        ∧ t.findReel p.val h = none ∧ t.produced p.val = s.produced p.val + r.unloadReqs.length))
  ∧ ∀ (p : Fin 16) (h u : Nat) (r : Reel) (s : State), s.findReel p.val h = some r → r.unloadAt = some u →
      r.cls = 1 → r.stopped = true → u + 2 ≤ s.clap.num →
      ∃ t, exec (.reelResourcesFree p h) s = .next t ∧ t.findReel p.val h = none
        ∧ t.sched.cues = (if r.cueFlush then [] else s.sched.cues)
        ∧ t.produced p.val = s.produced p.val + r.unloadReqs.length)

/-- R157–R159, log entry 91: a park or resume copy that ends is marked so, with a parity error where it met one, and its 4 KiB
units are counted in COPY_CNT; one whose image is not stored has not ended.  A resumed context has its new cache area.  A copy
that is not the first accepted of those outstanding does not end before it.

R142, R158: a paused context of an enabled partition whose deadline has come is retired with cause EXPIRED and counted in
TTL_EXP_CNT; one whose deadline has not, or that a copy serves, is left as it was; one whose descriptor fails its CHECK is
retired with cause FAULTED.

R387: when the restarted firmware answers, every run outstanding ends as FAULTED, and none is left. -/
def Obligations.ContextTimers : Prop :=
  (∀ (i : Nat) (res : CopyResult) (c : Copy) (s : State), s.copyInHand = some c → c.idx = i →
    let ended (par : Bool) := s.script.copies.map fun x =>
      if x.p = c.p && x.idx = c.idx then { x with ended := true, parity := par } else x
    let units := (s.desc i).imageLen / 4096
    (c.resume = false → ∃ t, exec (.parkCopyDone i res) s = .next t
      ∧ (if (s.begin.writeImage c).1 = none then t.script.copies = ended (res = .parity)
            ∧ t.rd pgPark 0x60 = satAdd (s.rd pgPark 0x60) units
         else t.script = s.script ∧ t.rd pgPark 0x60 = s.rd pgPark 0x60))
    ∧ (c.resume = true → ∃ t, exec (.resumeCopyDone i res) s = .next t
      ∧ match s.begin.readImage c with
        | (.error e, _) => t.script.copies = if e.isParity then ended true else s.script.copies
        | (.ok img, v) =>
          if (v.storeSlots c img).1 = none then t.script.copies = ended (res = .parity)
            ∧ (t.desc i).cacheAddr = c.req.addr1 ∧ (t.desc i).cacheLen = c.req.len1 * 4096
            ∧ t.rd pgPark 0x60 = satAdd (s.rd pgPark 0x60) units
          else t.script.copies = s.script.copies)
    ∧ ∀ k, (k ≠ i ∨ c.resume = true → exec (.parkCopyDone k res) s = .next s.begin)
      ∧ (k ≠ i ∨ c.resume = false → exec (.resumeCopyDone k res) s = .next s.begin))
  ∧ (∀ (i p : Nat) (s : State), s.ctxOwner i = some p → s.scriptDown = false → (s.part p).enabled = true →
    let v := s.begin.fetchDesc p i
    ∃ t, exec (.contextExpiry i) s = .next t
      ∧ (v.1 = true → v.2.expired i = true → (t.desc i).state = 5 ∧ (t.desc i).cause = 3 ∧ (t.desc i).deadline = 0
          ∧ t.rd pgScript 0x58 = satAdd (s.rd pgScript 0x58) 1)
      ∧ (v.1 = true → v.2.expired i = false → t = v.2)
      ∧ (v.1 = false → (t.desc i).state = 5 ∧ (t.desc i).cause = 4))
  ∧ (∀ s : State, s.script.stat = 1 → s.script.resetPending = true →
    ∃ t, exec .firmwareRestarted s = .next t ∧ t.script.stat = 2 ∧ t.script.resetPending = false ∧ t.script.runs = []
      ∧ ∀ r ∈ s.script.runs, (t.desc r.idx).run = false ∧ (t.desc r.idx).endCode = endFault)

/-! ### Work items, ledgers, the Splicer and the Telecine -/

/-- R33, R48, R49, R50: a class A item at its START, and a class B or C item whose turn the round-robin gives it, runs; on a cell,
pipe, Cutter or Framing page the unit takes it, and another partition's residue is zero-filled first (R359).  A class A item
that cannot start at its START is counted in LATE_CNT, and the SCHED page raises its event, once; a class B or C item whose turn
it is not waits.

R48, R403: when the work of a running item ends, the item is done and none waits for it any more; an injection armed on its unit halts it instead, with the parity event of its page.

R109, R114, R134, R139, R395: a parity error, a poisoned stream or a mismatch in a cell or a focus pipe raises its event on the
unit's page, and the page's parity event too where it is a parity error; the item that runs there halts with its fault code, and
so do the items that it batches, and a FAULT record of each waits for the next slate, except for a BLOCK_MISMATCH (log entry 10).
Where no item runs on the unit, nothing changes. -/
def Obligations.WorkItems : Prop :=
  (∀ (id : Nat) (i : Item) (s : State), s.item id = some i → i.st = .waiting →
    let u := s.begin.at (s.startInst i)
    let mine : Bool := (s.nextOn i.page).map (fun j => j.id) = some id
    ((if i.cls = 1 then u.canRun i else mine) = true →
      ∃ t j, exec (.itemStart id) s = .next t ∧ t.item id = some j ∧ j.st ≠ .waiting
        ∧ (i.unit < 0x400 → j.st = .running ∧ (t.unit i.page).busy = true ∧ (t.unit i.page).residue = some i.p
            ∧ (t.unit i.page).holder = i.p ∧ (t.unit i.page).reel = i.handle ∧ t.stores = s.stores ∧ t.script = s.script
            ∧ (∀ q, (s.unit i.page).residue = some q → q ≠ i.p →
                (t.unit i.page).can = [] ∧ (t.unit i.page).aux = [] ∧ (t.unit i.page).ledgers = []))
        ∧ (0x500 ≤ i.unit → j.st = .running ∧ t.stores = s.stores ∧ t.script = s.script))
    ∧ (i.cls = 1 → u.canRun i = false →
        (i.late = false → ∃ t, exec (.itemStart id) s = .next t ∧ t.has pgSched 9 = true
          ∧ AfterEvents ((u.modItem id fun i => { i with late := true }).count pgSched 0x58 1) t)
        ∧ (i.late = true → exec (.itemStart id) s = .next u))
    ∧ (i.cls ≠ 1 → mine = false → exec (.itemStart id) s = .next s.begin))
  ∧ (∀ (id : Nat) (inp : ItemIn) (i : Item) (r : Reel) (s : State), s.item id = some i → i.st = .running → i.unit < 0x400 →
    s.findReel i.p i.handle = some r →
    (∀ v u, s.begin.takeInject i.page = (none, v) → v.runUnit i r inp.streams = (.done, u) → (∃ j, u.item id = some j) →
      ∃ t j, exec (.itemDone id inp) s = .next t ∧ t.item id = some j ∧ j.st = .done ∧ ∀ k ∈ t.sched.items, id ∉ k.preds)
    ∧ ∀ k v, s.begin.takeInject i.page = (some k, v) →
      ∃ t j, exec (.itemDone id inp) s = .next t ∧ t.has i.page evParity = true ∧ t.item id = some j ∧ j.st = .halted
        ∧ j.haltCode = codeParity)
  ∧ ((∀ (c : Fin 256) (k : CellFault) (addr : Nat) (s : State),
    let pg := if c.val < 224 then pgPrime c.val else pgDraw (c.val - 224)
    (s.runningOn pg = none → exec (.cellParityHalt c k addr) s = .next s.begin)
    ∧ ∀ i, s.runningOn pg = some i →
      ∃ t j fs, exec (.cellParityHalt c k addr) s = .next t
        ∧ t.has pg (if c.val < 224 then cellEvent k else if k = .fabric then 10 else if k = .stream then 11 else 9) = true
        ∧ (k ≠ .stream → t.has pg evParity = true) ∧ t.item i.id = some j ∧ j.st = .halted
        ∧ j.haltCode = (if k = .stream then codeBus else codeParity) ∧ t.sched.faults = s.sched.faults ++ fs
        ∧ (fs.map fun f => (f.reason, f.part)) = ((s.batchOf i).map fun x => (j.haltCode, x.p))
        ∧ t.stores = s.stores ∧ t.units = s.units)
  ∧ ∀ (c : Fin 16) (k : PipeFault) (addr : Nat) (s : State),
    (s.runningOn (pgFocus c.val) = none → exec (.pipeFaultHalt c k addr) s = .next s.begin)
    ∧ ∀ i, s.runningOn (pgFocus c.val) = some i →
      ∃ t j, exec (.pipeFaultHalt c k addr) s = .next t ∧ t.has (pgFocus c.val) (pipeEvent k) = true
        ∧ (k ≠ .mismatch → t.has (pgFocus c.val) evParity = true) ∧ t.item i.id = some j ∧ j.st = .halted
        ∧ (if k = .mismatch then t.sched.faults = s.sched.faults
           else j.haltCode = codeParity ∧ ∃ fs, t.sched.faults = s.sched.faults ++ fs
            ∧ (fs.map fun f => (f.reason, f.part)) = ((s.batchOf i).map fun x => (codeParity, x.p))))

/-- R137, R306, R324: the lead keeps a member's first contribution of a mixdown, drops a second copy with the same bytes or one of
a mixdown that is past, and raises MIX_CONFLICT for one with different bytes; the closed values that come back are kept under
member 255, once.  With no such message waiting, nothing changes. -/
def Obligations.MixRows : Prop :=
  ∀ (q : Fin 8) (s : State),
    let first := s.links.inbox.find? fun m => m.port = q.val && m.kind = 4 && m.conv = 0 && !m.closed
    let back := s.links.inbox.find? fun m => m.port = q.val && m.kind = 4 && m.closed
    (first = none → exec (.mixContribution q) s = .next s.begin)
    ∧ (∀ m, first = some m →
        (s.contribOf m.msg m.item m.member = none → s.mixPast m.msg m.item = false →
          ∃ t, exec (.mixContribution q) s = .next t
            ∧ t.units.contribs = s.units.contribs ++ [(m.msg, m.item, m.member + 256 * m.port, m.data)])
        ∧ (s.contribOf m.msg m.item m.member = none → s.mixPast m.msg m.item = true →
          ∃ t, exec (.mixContribution q) s = .next t ∧ t.units.contribs = s.units.contribs
            ∧ t.units.mixDup = s.units.mixDup + 1 ∧ t.reg = s.reg)
        ∧ ∀ x, s.contribOf m.msg m.item m.member = some x →
          (x.2 = m.data → ∃ t, exec (.mixContribution q) s = .next t ∧ t.units.contribs = s.units.contribs
            ∧ t.units.mixDup = s.units.mixDup + 1 ∧ t.reg = s.reg)
          ∧ (x.2 ≠ m.data → ∃ t, exec (.mixContribution q) s = .next t ∧ t.units.contribs = s.units.contribs
            ∧ t.has (pgPort q.val) 21 = true))
    ∧ (back = none → exec (.closedValues q) s = .next s.begin)
    ∧ ∀ m, back = some m →
      ∃ t, exec (.closedValues q) s = .next t ∧ t.units.contribs = match s.contribOf m.msg m.item 255 with
        | none => s.units.contribs ++ [(m.msg, m.item, 255 + 256 * m.port, m.data)]
        | some _ => s.units.contribs

/-- R60–R64: a ledger is the plain sum of its terms, so the order of the products, and of the partial ledgers of one anchor
that join it, does not change it.

R66: a ledger whose value lies in the 160-bit range and whose anchor in the 12-bit range reads back from its 24-byte
record, and a record with a reserved bit set is refused. -/
def Obligations.LedgerSums : Prop :=
  ((∀ (l : Led) (ps qs : List (NumVal × NumVal)), ps.Perm qs →
    ps.foldl (fun (l : Led) (p : NumVal × NumVal) => l.addProduct p.1 p.2) l
      = qs.foldl (fun (l : Led) (p : NumVal × NumVal) => l.addProduct p.1 p.2) l)
  ∧ ∀ (l : Led) (ps qs : List Led), ps.Perm qs → ps.foldl Led.join l = qs.foldl Led.join l)
  ∧ ((∀ l : Led, -(2 ^ 159 : Int) ≤ l.x → l.x < 2 ^ 159 → -2048 ≤ l.anchor → l.anchor ≤ 2047 → Led.ofBytes l.bytes = some l)
  ∧ ∀ b : Bytes, 4096 ≤ leAt b 20 2 ∨ 16 ≤ leAt b 22 1 ∨ leAt b 23 1 ≠ 0 → Led.ofBytes b = none)

/-- R62: a product's term of magnitude 2^127 or more enters the ledger as 2^127 − 1 with the product's sign and sets POVF,
which every close of the ledger reports, whatever is added before it; a smaller term enters as it is. -/
def Obligations.ProductOverflow : Prop :=
  ∀ (l : Led) (m e n f : Int),
    let t := floorShift (m * n) (e + f - l.anchor)
    let k := l.addProduct (.fin m e) (.fin n f)
    (2 ^ 127 ≤ t.natAbs →
      k = { l with x := l.x + (if m * n < 0 then -(2 ^ 127 - 1) else 2 ^ 127 - 1), povf := true }
      ∧ ∀ (ps : List (NumVal × NumVal)) (c : CloseCfg),
          ((ps.foldl (fun (l : Led) (p : NumVal × NumVal) => l.addProduct p.1 p.2) k).close c).prod = true)
    ∧ (t.natAbs < 2 ^ 127 → k = { l with x := l.x + t })

/-- R191, R198, R199: a firing makes an armed channel eligible or gives it the slot; RESUME lets a halted channel go on and
ABORT ends its list and stops its item.  A channel that is not halted takes neither.

R190, R197: when the last run of a list ends, its item is done; a halt stops the channel, frees the slot, and raises the
halt's event on the channel's page, the parity one for a parity error, and on the SPLICER page. -/
def Obligations.SplicerRuns : Prop :=
  ((∀ (c : Fin 32) (i : Item) (s : State), s.item (s.chan c.val).item = some i → (i.st = .running ∨ i.st = .halted) →
    (s.chan c.val).firesLeft ≠ 0 → (s.splEntry (s.chan c.val).first).trig ≠ 2 →
    ((s.chan c.val).eligible = false → (s.chan c.val).st = 1 →
      ∃ t, exec (.splicerFiring c) s = .next t ∧ (t.chan c.val).firesLeft = (s.chan c.val).firesLeft - 1
        ∧ ((t.chan c.val).eligible = true ∨ t.splicer.slot = some c.val) ∧ t.stores = s.stores ∧ t.reg = s.reg))
  ∧ ∀ (c : Fin 32) (s : State),
    (s.writable (pgChan c.val) 0x40 2 = true →
      ∃ t, exec (.chCmdResume c) s = .next t ∧ t.stores = s.stores ∧ t.reg = s.reg
        ∧ (if (s.chan c.val).st = 3 then (t.chan c.val).eligible = true ∨ t.splicer.slot = some c.val
           else t.splicer = s.splicer ∧ t.sched = s.sched))
    ∧ (s.writable (pgChan c.val) 0x40 1 = true →
      ∃ t, exec (.chCmdAbort c) s = .next t ∧ t.stores = s.stores
        ∧ (if (s.chan c.val).st = 3 then (t.chan c.val).st = 0 ∧ (t.chan c.val).item = 0 ∧ t.splicer.slot ≠ some c.val
            ∧ ∀ i, s.item (s.chan c.val).item = some i → ∃ j, t.item i.id = some j ∧ j.st = .halted
           else t.splicer = s.splicer ∧ t.sched = s.sched)))
  ∧ ((∀ (c : Fin 32) (i : Item) (s u : State), s.splicer.slot = some c.val → (s.chan c.val).st = 2 →
    s.item (s.chan c.val).item = some i → i.spl = true → s.begin.runList c.val i 2049 = (true, u) → (u.chan c.val).runsLeft ≤ 1 →
    (∃ j, u.item i.id = some j) →
    ∃ t j, exec (.splicerListDone c) s = .next t ∧ t.item i.id = some j ∧ j.st = .done ∧ ∀ k ∈ t.sched.items, i.id ∉ k.preds)
  ∧ ∀ (c : Fin 32) (k : SplicerFault) (write narrow : Bool) (addr : Nat) (s : State), s.splicer.slot = some c.val →
    (s.chan c.val).st = 2 → (s.chan c.val).eligible = false →
    ∃ t, exec (.splicerChannelHalt c k write narrow addr) s = .next t ∧ (t.chan c.val).st = 3
      ∧ t.splicer.slot ≠ some c.val ∧ t.has (pgChan c.val) (if k = .parity then 9 else 8) = true ∧ t.has pgSplicer 8 = true
      ∧ t.stores = s.stores)

/-- R192: a channel that fires while it is running, halted or eligible keeps one pending firing; a further one is lost, with
TRIG_OVERRUN and TRIG_DROP_CNT (the tenant's total of it for a tenant's channel), and the item counts as failed.  A SLATE or
TIMER trigger of a list that has firings left is such a firing. -/
def Obligations.PendingFirings : Prop :=
  (∀ (c : Nat) (i : Item) (s : State), s.item (s.chan c).item = some i →
    (s.chan c).eligible = true ∨ (s.chan c).st = 2 ∨ (s.chan c).st = 3 →
    ((s.chan c).pendingFire = false → ((s.fireChan c).chan c).pendingFire = true
      ∧ ((s.fireChan c).chan c).st = (s.chan c).st ∧ ((s.fireChan c).chan c).eligible = (s.chan c).eligible
      ∧ (s.fireChan c).splicer.slot = s.splicer.slot ∧ (s.fireChan c).reg = s.reg ∧ (s.fireChan c).sched = s.sched
      ∧ (s.fireChan c).stores = s.stores)
    ∧ ((s.chan c).pendingFire = true → (s.fireChan c).has (pgChan c) 10 = true
      ∧ (s.fireChan c).splicer = s.splicer
      ∧ (i.st ≠ .halted → ∃ j, (s.fireChan c).item i.id = some j ∧ j.st = .halted ∧ j.haltCode = codeTrig)
      ∧ (i.st = .halted → (s.fireChan c).sched = s.sched)
      ∧ ((s.chan c).part = 0 → (s.fireChan c).rd pgSplicer 0x60 = satAdd (s.rd pgSplicer 0x60) 1)
      ∧ ((s.chan c).part ≠ 0 → (s.fireChan c).rd (pgPart (s.chan c).part) 0x19C
          = satAdd (s.rd (pgPart (s.chan c).part) 0x19C) 1)))
  ∧ ∀ (c : Fin 32) (s : State),
    let due : Prop := (s.chan c.val).st ≠ 0 ∧ (s.chan c.val).firesLeft ≠ 0 ∧ (s.splEntry (s.chan c.val).first).trig ≠ 2
      ∧ ∃ i, s.item (s.chan c.val).item = some i ∧ (i.st = .running ∨ i.st = .halted)
    (due → exec (.splicerFiring c) s
      = .next ((s.begin.modChan c.val fun k => { k with firesLeft := k.firesLeft - 1 }).fireChan c.val))
    ∧ (¬ due → exec (.splicerFiring c) s = .next s.begin)

/-- R194: a copy that ends has moved its range: the destination holds the source's bytes, and no byte outside the
destination's range has changed. -/
def Obligations.SplicerCopies : Prop :=
  ∀ (q : Requester) (c src dst len : Nat) (s u : State), (src + len ≤ dst ∨ dst + len ≤ src) →
    s.copyLoop q c src dst len 0 (src / 64) (len / 64 + 2) = (.done, u) →
    u.rawMain dst len = s.rawMain src len ∧ mainOutside s u dst len

/-- R211, R218, R403: a class B or C picture whose context is ready, whose tile comes first and whose span in the gap is open takes
the engine, reads its ring headers, and its context runs; before a decode, pictures that wait leave while a slot is free, and
units up to the next IRAP are skipped.  A parity error armed on the context's page halts it at that read, and a picture that is
not ready stays.

R212, R214, R216, R220: a slice whose source rows have been read goes into the bitstream ring as one record, after a PAD record
where it would pass the end of the data area, and its bytes count; one that a picture coded again has written already is not
written twice.  The engine takes a slice of the picture that it codes and of no other.

R210, R217, R218: a picture none of whose accesses fails ends: the context's picture number advances; an encode has written
its statistics entry and counts its reconstruction, and a decode has consumed its access unit.  An encode with slices still to
code, and a picture of a context that does not hold the engine, do not end.

R220: a fault halts the picture's context, raises PARITY_HALT or BUS_ERROR on its page and CTX_HALT on the TELECINE page,
and the engine leaves it.  RESUME codes the picture again from its start; RESTART_IDR gives it up, and the next picture is a
forced IDR; of a context that is not halted neither changes anything. -/
def Obligations.TelecinePictures : Prop :=
  (∀ (c : Fin 64) (inst : Nat) (s : State),
    let u := s.begin.at inst
    let ready (w : State) : Bool := w.picReady c.val && w.firstTile c.val && w.gapOpen inst (w.tctx c.val).d.picCycles
    let taken (w : State) : State :=
      ({ w with tele := { w.tele with engine := some c.val } } : State).modTctx c.val fun t => { t with st := 1 }
    let starts (w : State) (i : Instr) : Prop :=
      (ready w = true → (w.reh.live.find? fun x => x.page = pgTctx c.val) = none →
        ((taken w).teleRows c.val (w.tctx c.val).headers []).1 ≠ none →
        ∃ t, exec i s = .next t ∧ t.tele.engine = some c.val ∧ (t.tctx c.val).st = 1 ∧ (t.tctx c.val).pic = (w.tctx c.val).pic)
      ∧ (ready w = true → (w.reh.live.find? fun x => x.page = pgTctx c.val) ≠ none →
        ∃ t, exec i s = .next t ∧ (t.tctx c.val).st = 2 ∧ t.has (pgTctx c.val) 11 = true)
      ∧ (ready w = false → exec i s = .next w)
    ((s.tctx c.val).mode = 1 → (s.tctx c.val).classA = false → starts u (.encodePictureStart ⟨c, inst⟩))
    ∧ ((s.tctx c.val).mode = 2 → (s.tctx c.val).st = 3 → (s.tctx c.val).picsLeft ≠ 0 → (u.drainDue c.val 32).1 = true →
      starts ((u.drainDue c.val 32).2.skipAus c.val 64) (.decodePictureStart ⟨c, inst⟩)))
  ∧ (∀ (c : Fin 64) (inst : Nat) (s : State),
    let t := s.tctx c.val
    let mine : Bool := s.tele.engine = some c.val && t.mode = 1 && decide (t.slice < t.d.slices)
    let v := (s.begin.at inst).teleRows c.val (t.sliceReads t.slice) []
    (mine = false → exec (.sliceEmit c inst) s = .next (s.begin.at inst))
    ∧ (mine = true → v.1 ≠ none → t.slice < t.slicesDone →
      ∃ t', exec (.sliceEmit c inst) s = .next t' ∧ (t'.tctx c.val).slice = t.slice + 1 ∧ (t'.tctx c.val).produced = t.produced)
    ∧ (mine = true → v.1 ≠ none → t.slicesDone ≤ t.slice →
        let b := v.2.sliceRec c.val
        let w := v.2.padFor c.val b
        w.1 = true → (w.2.putRec c.val b).1 = true →
        ∃ t', exec (.sliceEmit c inst) s = .next t' ∧ (t'.tctx c.val).slice = t.slice + 1
          ∧ (t'.tctx c.val).produced = (w.2.tctx c.val).produced + b.length
          ∧ (b.length ≤ t.ringRest → (t'.tctx c.val).produced = t.produced + b.length)))
  ∧ (∀ (c : Fin 64) (inst : Nat) (s : State),
    let t := s.tctx c.val
    (s.tele.engine ≠ some c.val ∨ (t.mode ≠ 2 ∧ t.slice < t.d.slices) → exec (.pictureDone c inst) s = .next (s.begin.at inst))
    ∧ (s.tele.engine = some c.val →
      (t.mode ≠ 2 → t.d.slices ≤ t.slice → (((s.begin.at inst).encodeDone c.val).tctx c.val).st ≠ 2 →
        ∃ t', exec (.pictureDone c inst) s = .next t' ∧ (t'.tctx c.val).pic = t.pic + 1
          ∧ (t'.tctx c.val).statProduced = t.statProduced + 1 ∧ (t'.tctx c.val).recons = t.recons + 1)
      ∧ (t.mode = 2 → ∀ len flags b, s.nextAu c.val = some (len, flags, b) → (((s.begin.at inst).decodeDone c.val).tctx c.val).st ≠ 2 →
        ∃ t', exec (.pictureDone c inst) s = .next t' ∧ (t'.tctx c.val).pic = t.pic + 1
          ∧ (t'.tctx c.val).consumed = t.consumed + 16 + roundUp len 16)))
  ∧ ((∀ (c : Fin 64) (k : TelecineFault) (addr : Nat) (s : State),
    (s.tele.engine ≠ some c.val → exec (.telecineContextHalt c k addr) s = .next s.begin)
    ∧ (s.tele.engine = some c.val →
      ∃ t, exec (.telecineContextHalt c k addr) s = .next t ∧ (t.tctx c.val).st = 2 ∧ t.tele.engine ≠ some c.val
        ∧ t.has (pgTctx c.val) (if k = .engine ∨ k = .poisoned then 11 else 12) = true ∧ t.has pgTele 8 = true
        ∧ t.stores.main = s.stores.main ∧ t.stores.park = s.stores.park))
  ∧ ∀ (c : Fin 64) (s : State),
    (s.writable (pgTctx c.val) 0x40 1 = true →
      ∃ t, exec (.ctxCmdResume c) s = .next t
        ∧ (if (s.tctx c.val).st = 2 then (t.tctx c.val).slice = 0 ∧ (t.tctx c.val).pic = (s.tctx c.val).pic
            ∧ (t.tctx c.val).slicesDone = max (s.tctx c.val).slicesDone (s.tctx c.val).slice
           else t = s.begin))
    ∧ (s.writable (pgTctx c.val) 0x40 2 = true →
      ∃ t, exec (.ctxCmdRestartIdr c) s = .next t
        ∧ (if (s.tctx c.val).st = 2 then (t.tctx c.val).forceIdr = true ∧ (t.tctx c.val).picsLeft = 0 ∧ (t.tctx c.val).slice = 0
           else t = s.begin)))

/-! ### Stores, scrubs and partitions -/

/-- R171, R177: a link or interface that was up, or in training, goes down and its page raises LINK_DOWN or IF_DOWN;
RETRAIN on an enabled one takes it down and starts a training, whose end brings it up; the bit reads 1 until then, and on one
that is not enabled starts none.  The store keeps its contents throughout.

R170, R176, R177, R179: a command that a magazine cannot carry out is latched as ADDR_ERR, and the access behind it is to fail;
one that it can is not reported; a beat that fails parity on its way to the store leaves its granule poisoned, with PARITY_WR;
derating raises HOT as it begins; the diagnostic read gives the map of failing bytes of a granule of its own controller behind a
link that is up, and nothing for another's. -/
def Obligations.LinksAndStores : Prop :=
  (∀ (l : LinkId) (s : State),
    let live : Bool := (s.ctl l.ctl).up.testBit l.bit || (s.ctl l.ctl).training.testBit l.bit
    (live = false → exec (.linkDown l) s = .next s.begin)
    ∧ (live = true →
      ∃ t, exec (.linkDown l) s = .next t ∧ (t.ctl l.ctl).up.testBit l.bit = false
        ∧ (t.ctl l.ctl).training.testBit l.bit = false
        ∧ t.has l.page (match l with | .octal _ => 13 | .park _ => 12) = true
        ∧ t.stores.main = s.stores.main ∧ t.stores.park = s.stores.park)
    ∧ (s.writable l.page 0x40 (setBit (word (s.rdn l.page 0x40 % 2 ^ (if l.ctl = 8 then 8 else 4))) (retrainBit l) true) = true →
      ∃ t, exec (.retrain l) s = .next t ∧ (t.ctl l.ctl).up.testBit l.bit = false
        ∧ (t.ctl l.ctl).training.testBit l.bit = s.linkEn l ∧ bit (t.rd l.page 0x40) (retrainBit l) = s.linkEn l
        ∧ t.stores.main = s.stores.main ∧ t.stores.park = s.stores.park)
    ∧ ((s.ctl l.ctl).training.testBit l.bit = true →
      ∃ t, exec (.retrainDone l) s = .next t ∧ (t.ctl l.ctl).up.testBit l.bit = true
        ∧ (t.ctl l.ctl).training.testBit l.bit = false ∧ bit (t.rd l.page 0x40) (retrainBit l) = false
        ∧ t.stores.main = s.stores.main ∧ t.stores.park = s.stores.park)
    ∧ ((s.ctl l.ctl).training.testBit l.bit = false → exec (.retrainDone l) s = .next s.begin))
  ∧ ((∀ (l : Fin 32) (cmd : Word) (unit : Fin 2048) (s : State),
    let g := paOf l.val (cmdGran cmd.toNat * 64) / 64
    (cmdOk cmd.toNat = true → exec (.addrErr l ⟨cmd, unit⟩) s = .next s.begin)
    ∧ (cmdOk cmd.toNat = false →
      ∃ t, exec (.addrErr l ⟨cmd, unit⟩) s = .next t ∧ t.has (pgMag (l.val / 4)) 14 = true ∧ g ∈ t.stores.reported
        ∧ AfterEvents { s with stores := { s.stores with reported := t.stores.reported } } t))
  ∧ (∀ (l : Fin 32) (pa : Nat) (unit : Fin 2048) (s : State),
    ∃ t, exec (.parityWr l ⟨pa, unit⟩) s = .next t ∧ t.badMainAt (pa / 64) = poison ∧ t.has (pgMag (l.val / 4)) 10 = true
      ∧ t.has (pgMag (l.val / 4)) evParity = true ∧ t.stores.main = s.stores.main
      ∧ t.rd (pgMag (l.val / 4)) 0x58 = satAdd (s.rd (pgMag (l.val / 4)) 0x58) 1
      ∧ ∀ g, g ≠ pa / 64 → t.badMainAt g = s.badMainAt g)
  ∧ (∀ (on : Bool) (i : Fin 8) (s : State),
    ∃ t, exec (.hot on i) s = .next t ∧ (t.ctl 8).hot.testBit i.val = on ∧ t.stores.main = s.stores.main
      ∧ t.stores.park = s.stores.park ∧ (on = true → (s.ctl 8).hot.testBit i.val = false → t.has pgPark 16 = true))
  ∧ ∀ (m : Fin 8) (v : Word) (s : State), s.writable (pgMag m.val) 0x84 v = true →
    let pa := (s.rdn (pgMag m.val) 0x7C / 64 * 64) + 2 ^ 32 * (s.rdn (pgMag m.val) 0x80 % 64)
    exec (.diagGo m v) s = .next (
      if bit v 0 && decide (pa < mainSize) && decide (linkOf pa / 4 = m.val) && (s.ctl m.val).up.testBit (linkOf pa % 4) then
        s.begin.modCtl m.val fun c => { c with diag := s.badMainAt (pa / 64) }
      else s.begin))

/-- R265, R347: SCRUB and TENANT_CHANGE are accepted of a partition that is not enabled, holds no reel and is under no scrub,
and wait for the slate; without slates they start at once (R249); any other is refused.  A tenant change needs the keys and a
partition other than 0, and one more than the fuses hold raises COUNTER_SPENT as well.  PRST waits for the slate after it, and
a second one changes nothing.

R265: a partition's ENABLE is taken at the next slate where its conditions hold, and refused where they do not; without
slates it acts at once, and PRODUCED of both rings is taken from the store (log entry 22, the model's reading).  A write of the
value that the page shows changes nothing, and a locked page drops one of another. -/
def Obligations.PartitionCommands : Prop :=
  (∀ (p : Fin 16) (s : State),
    let freed (t : State) : Prop := (t.part p.val).scrubbing = true ∧ (t.part p.val).scrubReq = false
      ∧ (t.part p.val).bound = false ∧ ∀ i, s.ctxOf p.val i = true → t.desc i = {}
    (s.writable (pgPart p.val) 0x40 1 = true →
      (s.scrubOkNow p.val = true → s.slatesOn = true →
        exec (.scrub p) s = .next (s.begin.modPart p.val fun q => { q with scrubReq := true }))
      ∧ (s.scrubOkNow p.val = true → s.slatesOn = false → (s.part p.val).changeReq = false →
        ∃ t, exec (.scrub p) s = .next t ∧ freed t ∧ ({ p := p.val } : ScrubRec) ∈ t.stores.scrubs)
      ∧ (s.scrubOkNow p.val = false →
        ∃ t, exec (.scrub p) s = .next t ∧ AfterEvents s t ∧ t.has (pgPart p.val) evRefused = true))
    ∧ (s.writable (pgPart p.val) 0x40 2 = true →
      (s.scrubOkNow p.val = true → p.val ≠ 0 → s.sec.keysReady = true → s.sec.counter + s.pendingBurns < 4096 →
        (s.slatesOn = true →
          exec (.tenantChange p) s = .next (s.begin.modPart p.val fun q => { q with scrubReq := true, changeReq := true }))
        ∧ (s.slatesOn = false → ∃ t, exec (.tenantChange p) s = .next t ∧ freed t ∧ (t.part p.val).burning = true
            ∧ t.stores.scrubs = s.stores.scrubs))
      ∧ (s.scrubOkNow p.val = false ∨ p.val = 0 ∨ s.sec.keysReady = false ∨ 4096 ≤ s.sec.counter + s.pendingBurns →
        ∃ t, exec (.tenantChange p) s = .next t ∧ AfterEvents s t ∧ t.has (pgPart p.val) evRefused = true
          ∧ (s.scrubOkNow p.val = true → p.val ≠ 0 → s.sec.keysReady = true → t.has pgSec0 8 = true)))
    ∧ (s.writable (pgPart p.val) 0x40 4 = true →
      ((s.part p.val).prstReq = false →
        exec (.prst p) s = .next (s.begin.modPart p.val fun q => { q with prstReq := true, prstAt := s.clap.num }))
      ∧ ((s.part p.val).prstReq = true → ∃ t, exec (.prst p) s = .next t ∧ t.part p.val = s.part p.val)))
  ∧ (∀ (p : Fin 16) (on : Bool) (s : State), s.unreach (pgPart p.val) = false →
    ((s.hdr (pgPart p.val)).lock = false → (s.hdr (pgPart p.val)).enable = on → exec (.partitionEnable p on) s = .next s.begin)
    ∧ ((s.hdr (pgPart p.val)).lock = true → (s.hdr (pgPart p.val)).enable = !on →
      ∃ t, exec (.partitionEnable p on) s = .next t ∧ t.has (pgPart p.val) evLocked = true ∧ t.part p.val = s.part p.val
        ∧ t.stores = s.stores)
    ∧ ((s.hdr (pgPart p.val)).lock = false → (s.hdr (pgPart p.val)).enable = !on →
    let allowed := if on then s.enableOk p.val && !(s.part p.val).scrubbing && !(s.part p.val).scrubReq
      else (s.reelsOf p.val).isEmpty
    (allowed = false →
      ∃ t, exec (.partitionEnable p on) s = .next t ∧ AfterEvents s t ∧ t.has (pgPart p.val) evRefused = true)
    ∧ (allowed = true → s.slatesOn = true →
      exec (.partitionEnable p on) s = .next ((s.begin.modHdr (pgPart p.val) fun h => { h with enable := on }).modPart p.val
        fun q => { q with enableReq := some on }))
    ∧ (allowed = true → s.slatesOn = false → (s.part p.val).enabled = !on →
      ∃ t, exec (.partitionEnable p on) s = .next t ∧ (t.part p.val).enabled = on
        ∧ t.has (pgPart p.val) (if on then 8 else 9) = true ∧ t.stores = s.stores
        ∧ (on = true → (∀ k, k < 4096 → t.shadowOf p.val k = 0)
            ∧ t.produced p.val = leNat (s.rawMain (s.msBase p.val + s.rd64 (pgPart p.val) 0x68) 8)))))

/-- R348: the lowest partition whose burn is under way: a burn that takes advances the counter, and the scrub's shares begin under
the new key; one with no fuse and no spare left fails the scrub, with COUNTER_BURN_FAIL.

R181: at the end of a controller's share every byte of it behind a link that is up reads as zero and no other byte has
changed; the share is OK where no write met an error, and FAILED, with SCRUB_ERR, where one did.

R181: at the slate after the last controller has ended its share, a scrub without a failure is complete, every store page
raises SCRUB_DONE, and the partition may be enabled; one with a failure leaves the partition held, with SCRUB_FAILED. -/
def Obligations.Scrubs : Prop :=
  (∀ (p : Fin 16) (burns : BurnTrace) (s : State),
    let mine : Bool := (s.part p.val).burning && (List.range p.val).all fun j => !(s.part j).burning
    (mine = false ∨ burnResult s.sec.spares burns = none → exec (.counterBurnDone p burns) s = .next s.begin)
    ∧ ∀ n, mine = true →
      (burnResult s.sec.spares burns = some (true, n) →
        ∃ t, exec (.counterBurnDone p burns) s = .next t ∧ t.sec = { s.sec with counter := s.sec.counter + 1, spares := n }
          ∧ (t.part p.val).t = s.sec.counter + 1 ∧ (t.part p.val).burning = false ∧ (t.part p.val).exposed = false
          ∧ ({ p := p.val } : ScrubRec) ∈ t.stores.scrubs ∧ t.stores.main = s.stores.main)
      ∧ (burnResult s.sec.spares burns = some (false, n) →
        ∃ t, exec (.counterBurnDone p burns) s = .next t ∧ t.sec = { s.sec with spares := n }
          ∧ (t.part p.val).scrubFailed = true ∧ (t.part p.val).scrubbing = false ∧ t.has pgSec0 9 = true))
  ∧ (∀ (c : Fin 9) (ok : Bool) (s : State),
    let k := s.ctl c.val
    let n := k.ptr + k.left
    let fine : Bool := ok && !k.scrubErr && decide (s.downCount c.val = 0)
    (k.scrub ≠ 1 ∨ k.paused = true → exec (.scrubShareDone c ok) s = .next s.begin)
    ∧ (k.scrub = 1 → k.paused = false →
      ∃ t, exec (.scrubShareDone c ok) s = .next t
        ∧ (c.val < 8 → t.stores.park = s.stores.park ∧ ∀ pa, t.rawMain pa 1 =
            if s.inArea k.scrubPart pa && linkOf pa / 4 = c.val && k.up.testBit (linkOf pa % 4)
              && decide (s.areaOff k.scrubPart pa < n * 2 ^ 24) then [0] else s.rawMain pa 1)
        ∧ (c.val = 8 → t.stores.main = s.stores.main ∧ ∀ a, t.rawPark a 1 =
            if decide (s.pkBase k.scrubPart ≤ a)
              && decide (a < s.pkBase k.scrubPart + min (s.pkSize k.scrubPart) (n * 2 ^ 21)) && k.up.testBit (ifOf a) then [0]
            else s.rawPark a 1)
        ∧ (k.scrubQueue = [] → (t.ctl c.val).scrub = if fine then 2 else 3)
        ∧ (fine = false → t.has (ctlPage c.val) (if c.val = 8 then 15 else 17) = true)))
  ∧ (∀ (p : Fin 16) (s : State),
    (s.scrubEnded p.val = none ∨ s.scrubSlate p.val = false → exec (.scrubDone p) s = .next s.begin)
    ∧ (s.scrubEnded p.val = some false → s.scrubSlate p.val = true →
      ∃ t, exec (.scrubDone p) s = .next t ∧ (t.part p.val).scrubbing = false ∧ (t.part p.val).scrubFailed = false
        ∧ (t.part p.val).scrubOk = true ∧ t.has (pgPart p.val) 10 = true ∧ t.has pgPark 14 = true
        ∧ (∀ m, m < 8 → t.has (pgMag m) 16 = true) ∧ t.stores.main = s.stores.main)
    ∧ (s.scrubEnded p.val = some true → s.scrubSlate p.val = true →
      ∃ t, exec (.scrubDone p) s = .next t ∧ (t.part p.val).scrubbing = false ∧ (t.part p.val).scrubFailed = true
        ∧ (t.part p.val).scrubOk = false ∧ (t.part p.val).heldForScrub = true ∧ t.has (pgPart p.val) 11 = true))

/-- R264: every accepted write to MS_RANGE, PARK_RANGE, CTX_FIRST or CTX_COUNT clears SCRUB_OK, and so do a power-on, also
at the end of a hold-up, MRST_N and every increment of the tenancy counter for the partition; a scrub's completion sets
it. -/
def Obligations.ScrubOkCleared : Prop :=
  (∀ (p : Fin 16) (pg : Fin 4112) (w : Fin 1024) (v : Word) (s : State), pg.val = pgPart p.val →
    4 * w.val ∈ [0x48, 0x4C, 0x54, 0x58] → s.writable pg.val (4 * w.val) v = true → s.partBusy p.val = false →
    (s.wr pg.val (4 * w.val) v).rangesOk p.val = true →
    ∃ t, exec (.registerWrite pg w v) s = .next t ∧ t.rd pg.val (4 * w.val) = v ∧ (t.part p.val).scrubOk = false)
  ∧ (∀ (straps : Option (Fin 256)) (p : Nat) (s : State),
      (∃ t, exec (.powerOn straps) s = .next t ∧ (t.part p).scrubOk = false)
      ∧ (∃ t, exec .mrstN s = .next t ∧ (t.part p).scrubOk = false)
      ∧ (s.power.holdup = true → ∃ t, exec .holdup s = .next t ∧ (t.part p).scrubOk = false))
  ∧ ∀ (p : Fin 16) (s : State),
      (∀ (burns : BurnTrace) (n : Nat), (s.part p.val).burning = true → (∀ j, j < p.val → (s.part j).burning = false) →
        burnResult s.sec.spares burns = some (true, n) →
        ∃ t, exec (.counterBurnDone p burns) s = .next t ∧ t.sec.counter = s.sec.counter + 1
          ∧ (t.part p.val).scrubOk = false)
      ∧ (s.scrubEnded p.val = some false → s.scrubSlate p.val = true →
        ∃ t, exec (.scrubDone p) s = .next t ∧ (t.part p.val).scrubOk = true)

/-- R386, R265: a partition reset frees every context of the partition, ends its requests, items and runs with no record,
clears its shadows and totals and ends its binding; it is done once its last item has left. -/
def Obligations.PartitionResets : Prop :=
  ∀ (p : Fin 16) (s : State),
    ((s.part p.val).prstReq = true → s.slatePassed (s.part p.val).prstAt = true →
      ∃ t, exec (.partitionReset p) s = .next t ∧ (t.part p.val).prstBusy = true ∧ (t.part p.val).prstReq = false
        ∧ (t.part p.val).bound = false ∧ (∀ i, s.ctxOf p.val i = true → t.desc i = {})
        ∧ (∀ i ∈ t.sched.items, i.p ≠ p.val) ∧ (∀ l ∈ t.sched.loads, l.p ≠ p.val) ∧ (∀ b ∈ t.sched.batches, b.p ≠ p.val)
        ∧ (∀ r ∈ t.script.runs, r.p ≠ p.val) ∧ (∀ c ∈ t.script.copies, c.p ≠ p.val)
        ∧ (∀ k, k < 4096 → t.shadowOf p.val k = 0) ∧ (∀ off ∈ totalOffsets, t.rd (pgPart p.val) off = 0)
        ∧ (∀ a, s.ctxOf p.val (a / 256) = false → t.rawMain a 1 = s.rawMain a 1))
    ∧ ((s.part p.val).prstReq = false ∨ s.slatePassed (s.part p.val).prstAt = false →
      exec (.partitionReset p) s = .next s.begin)
    ∧ ((s.part p.val).prstBusy = false ∨ s.partItems p.val ≠ [] → exec (.prstDone p) s = .next s.begin)
    ∧ ((s.part p.val).prstBusy = true → s.partItems p.val = [] →
      ∃ t, exec (.prstDone p) s = .next t ∧ t.has (pgPart p.val) 14 = true
        ∧ AfterEvents (s.modPart p.val fun q => { q with prstBusy := false }) t)

/-! ### Register accesses -/

/-- R252–R254: ENABLE of a page that is neither a PARTITION page nor fixed is stored, and a fixed page, or one that a class A
reel holds, refuses ENABLE = 0; a PARTITION page's is PARTITION_ENABLE, and a locked page's stays; OWNER_LOCK stays set; RST clears
the events, the parity count, the fault latch and the counts of the page, nothing while RST_BUSY reads 1, and RESET_DONE
follows.

R255, R257: an event set through BLK_EVT_SET stands and changes nothing else; a write of BLK_EVT clears the bits that it
names, FAULT_LATCHED among them, and leaves the others; a bit that is no event of the page raises RESERVED_WRITE.

R258: FREEZE holds what every RO and RC register shows, and changes no register, until it is cleared; while the page is held
a read of a counter returns the held value and clears nothing; R13: otherwise it returns the count and clears it; R358: one that
a tenant's work hides reads 0 and keeps its count. -/
def Obligations.HeaderControl : Prop :=
  (∀ (pg : Fin 4096) (v : Word) (s : State), s.reaches pg.val = true →
    let h := s.hdr pg.val
    (ctrlBut h v 0 = true → h.lock = false → pageKind pg.val ≠ .partition →
      (bit v 0 = h.enable → exec (.enable pg v) s = .next s.begin)
      ∧ (bit v 0 ≠ h.enable → (bit v 0 = true ∨ (enableFixed pg.val = false ∧ s.heldByA pg.val = false)) →
        exec (.enable pg v) s = .next (s.begin.modHdr pg.val fun h => { h with enable := bit v 0 }))
      ∧ (bit v 0 = false → h.enable = true → (enableFixed pg.val = true ∨ s.heldByA pg.val = true) →
        ∃ t, exec (.enable pg v) s = .next t ∧ AfterEvents s t ∧ t.has pg.val evRefused = true))
    ∧ (ctrlBut h v 0 = true → h.lock = true → bit v 0 ≠ h.enable →
      ∃ t, exec (.enable pg v) s = .next t ∧ t.has pg.val evLocked = true ∧ (t.hdr pg.val).enable = h.enable)
    ∧ (∀ p : Fin 16, pg.val = pgPart p.val → ctrlBut h v 0 = true →
      exec (.enable pg v) s = exec (.partitionEnable p (bit v 0)) s)
    ∧ (ctrlBut h v 3 = true → bit v 3 = true →
      exec (.ownerLock pg v) s = .next (s.begin.modHdr pg.val fun h => { h with lock := true }))
    ∧ (ctrlBut h v 1 = true → bit v 1 = true →
      (h.rstBusy = false →
        ∃ t, exec (.rst pg v) s = .next t ∧ (t.hdr pg.val).rstBusy = true ∧ (t.hdr pg.val).evt = 0 ∧ (t.hdr pg.val).perr = 0
          ∧ (t.hdr pg.val).faddr = 0 ∧ (t.hdr pg.val).finfo = 0 ∧ (t.hdr pg.val).enable = h.enable
          ∧ (t.hdr pg.val).evtEn = h.evtEn ∧ (t.hdr pg.val).owner = h.owner
          ∧ ∀ off ∈ resetCounts pg.val, t.rd pg.val off = 0)
      ∧ (h.rstBusy = true → ∃ t, exec (.rst pg v) s = .next t ∧ t.hdr pg.val = h ∧ t.stores = s.stores))
    ∧ (h.rstBusy = true →
      ∃ t, exec (.resetDone pg) s = .next t ∧ t.has pg.val evResetDone = true
        ∧ AfterEvents (s.modHdr pg.val fun h => { h with rstBusy := false }) t)
    ∧ (h.rstBusy = false → exec (.resetDone pg) s = .next s.begin))
  ∧ (∀ (pg : Fin 4096) (v : Word) (s : State), s.reaches pg.val = true →
    let m := word (pageEvtMask pg.val)
    let w := setBit v evLatched true
    let cleared := s.begin.modHdr pg.val fun h => { h with evt := h.evt &&& ~~~(w &&& m) }
    (∃ t, exec (.blkEvtSet pg v) s = .next t ∧ AfterEvents s t ∧ (∀ b, b < 32 → bit (v &&& m) b = true → t.has pg.val b = true)
      ∧ (v &&& ~~~m ≠ 0 → t.has pg.val evReserved = true))
    ∧ (w &&& ~~~m = 0 → exec (.faultLatchRelease pg v) s = .next cleared)
    ∧ (w &&& ~~~m ≠ 0 →
      ∃ t, exec (.faultLatchRelease pg v) s = .next t ∧ AfterEvents cleared t ∧ t.has pg.val evReserved = true))
  ∧ ((∀ (pg : Fin 4096) (v : Word) (s : State), s.reaches pg.val = true → ctrlBut (s.hdr pg.val) v 2 = true →
    s.reg.snapHeld = false → (s.hdr pg.val).freeze ≠ bit v 2 →
    ∃ t, exec (.freeze pg v) s = .next t ∧ t.frozen pg.val = bit v 2 ∧ t.reg.cur = s.reg.cur ∧ t.stores = s.stores
      ∧ (bit v 2 = true → ∀ off ∈ heldOffsets pg.val, heldGet t pg.val off = s.regValue pg.val off))
  ∧ ∀ (pg : Fin 4112) (w : Fin 1024) (r : RegRow) (s : State), s.reaches pg.val = true → (s.hdr pg.val).rstBusy = false →
    0x40 ≤ 4 * w.val → regRow pg.val (4 * w.val) = some r → r.acc = .rc →
    (s.frozen pg.val = true →
      exec (.rcRead pg w) s = .next (s.begin.emit (.readData (leBytes 4 (heldGet s pg.val (4 * w.val)).toNat))))
    ∧ (s.frozen pg.val = false → s.hidden pg.val (4 * w.val) = true →
      exec (.rcRead pg w) s = .next (s.begin.emit (.readData (zeros 4))))
    ∧ (s.frozen pg.val = false → s.hidden pg.val (4 * w.val) = false →
      exec (.rcRead pg w) s = .next ((s.begin.wr pg.val (4 * w.val) 0).emit
        (.readData (leBytes 4 (s.regValue pg.val (4 * w.val)).toNat)))))

/-- R260: a write of a locked register is dropped with LOCKED_WRITE; R13: one of a read-only register changes nothing; R254: one
during RST_BUSY is refused; R18, R250, R378: a page that is not implemented, or that no access reaches, takes no write;
R12: a 4-byte aligned access is a register access, and a write of less than a word is dropped with RESERVED_WRITE. -/
def Obligations.WritesTurnedAway : Prop :=
  (∀ (pg : Fin 4112) (w : Fin 1024) (r : RegRow) (v : Word) (s : State), s.reaches pg.val = true →
    0x40 ≤ 4 * w.val → regRow pg.val (4 * w.val) = some r →
    ((s.hdr pg.val).rstBusy = true →
      ∃ t, exec (.registerWrite pg w v) s = .next t ∧ AfterEvents s t ∧ t.has pg.val evRefused = true)
    ∧ ((s.hdr pg.val).rstBusy = false → (r.acc = .ro ∨ r.acc = .rc) → exec (.registerWrite pg w v) s = .next s.begin)
    ∧ ((s.hdr pg.val).rstBusy = false → r.acc ≠ .ro → r.acc ≠ .rc →
        (s.hdr pg.val).lock = true → lockOpen pg.val (4 * w.val) = 0 →
      ∃ t, exec (.registerWrite pg w v) s = .next t ∧ AfterEvents s t ∧ t.has pg.val evLocked = true))
  ∧ (∀ (pg : Fin 4112) (w : Fin 1024) (v : Word) (s : State), pg.val < bar2Page → s.reaches pg.val = false →
      exec (.registerWrite pg w v) s = .next s.begin)
  ∧ (∀ (pg : Fin 4112) (w : Fin 1024) (d : Bytes) (s : State), d.length = 4 →
      exec (.narrowAccess true (pg.val * 0x1000 + 4 * w.val) d) s = exec (.registerWrite pg w (word (leAt d 0 4))) s
      ∧ exec (.narrowAccess false (pg.val * 0x1000 + 4 * w.val) d) s = exec (.rcRead pg w) s)
  ∧ ∀ (a : Nat) (d : Bytes) (s : State), a < barSize → d.length = 1 → s.reaches (a / 0x1000) = true →
      ∃ t, exec (.narrowAccess true a d) s = .next t ∧ AfterEvents s t ∧ t.has (a / 0x1000) evReserved = true

/-- R250: an unimplemented page reads 0 in every byte and drops every write, with no event; a read needs a way to BAR0, the
die-to-die link or an open console (R18, R358). -/
def Obligations.UnimplementedPages : Prop :=
  ∀ (pg : Fin 4112) (s : State), pg.val < bar2Page → implemented pg.val = false → s.regPath = true →
    (∀ (w : Fin 1024) (v : Word), exec (.registerWrite pg w v) s = .next s.begin
      ∧ exec (.rcRead pg w) s = .next (s.begin.emit (.readData (zeros 4))))
    ∧ ∀ (a : Nat) (d : Bytes), pg.val * 0x1000 ≤ a → a + d.length ≤ (pg.val + 1) * 0x1000 →
        exec (.narrowAccess true a d) s = .next s.begin
        ∧ exec (.narrowAccess false a d) s = .next (s.begin.emit (.readData (zeros d.length)))

/-- The GAFFER page's cap, R371, and the port timers (R290, R310): a value in range is stored, and the timers take force at the
next slate, or at once without slates (R249); any other is dropped with WRITE_REFUSED.  R228: a word of the MSI-X table, in BAR2, holds what is written, but for
the bits that log entry 23 names.

R107: FENCE is stored, to take force at the next slate; set on a unit that the class A reel holds it stays pending, with
FENCE_PENDING, and clearing it ends that.  R98: MAP_CRC_CLR clears the checksum at the next slate.  R259: SNAP and RELEASE
wait for the next slate too, and RELEASE replaces a SNAP that waits; without slates they act at once (R249). -/
def Obligations.RegisterWrites : Prop :=
  ((∀ (v : Word) (s : State), s.writable pgGaffer 0x44 v = true →
    (capOk (field v 0 9) = true → exec (.registerWrite 0x001 0x11 v) s = .next (s.begin.wr pgGaffer 0x44 v))
    ∧ (capOk (field v 0 9) = false →
      ∃ t, exec (.registerWrite 0x001 0x11 v) s = .next t ∧ AfterEvents s t ∧ t.has pgGaffer evRefused = true))
  ∧ (∀ (w : Fin 1024) (v : Word) (s : State), w.val < 256 → s.unreach pgD2d = false →
    ∃ t, exec (.registerWrite 0x1000 w v) s = .next t ∧ t.stores = s.stores
      ∧ (s.slatesOn = true → t.reg = s.reg ∧ t.d2d.latch = s.d2d.latch)
      ∧ (∀ x, x ≠ w.val → mget msixReset t.d2d.msix x = mget msixReset s.d2d.msix x)
      ∧ exec (.rcRead 0x1000 w) t = .next (t.begin.emit (.readData (leBytes 4 (v &&& msixMask w.val).toNat))))
  ∧ ∀ (q : Fin 8) (w : Fin 1024) (v : Word) (s : State), 0x4C ≤ 4 * w.val → 4 * w.val ≤ 0x5C →
    s.writable (0x18 + q.val) (4 * w.val) v = true →
    (timerOk (4 * w.val) v = true →
      ∃ t, exec (.registerWrite ⟨0x18 + q.val, by omega⟩ w v) s = .next t ∧ t.rd (pgPort q.val) (4 * w.val) = v
        ∧ t.links = s.links
        ∧ (s.slatesOn = true → t.fo (pgPort q.val) (4 * w.val) = s.fo (pgPort q.val) (4 * w.val)
            ∧ t.reg.due = s.reg.due ++ [rk (pgPort q.val) (4 * w.val)])
        ∧ (s.slatesOn = false → t.fo (pgPort q.val) (4 * w.val) = v))
    ∧ (timerOk (4 * w.val) v = false →
      ∃ t, exec (.registerWrite ⟨0x18 + q.val, by omega⟩ w v) s = .next t ∧ AfterEvents s t
        ∧ t.has (pgPort q.val) evRefused = true))
  ∧ ((∀ (pg : Fin 4096) (v : Word) (s : State), (pageKind pg.val = .prime ∨ pageKind pg.val = .draw ∨ pageKind pg.val = .focus) →
    s.writable pg.val 0x40 v = true →
    ∃ t, exec (.fence pg v) s = .next t ∧ t.rd pg.val 0x40 = v ∧ t.stores = s.stores ∧ t.sched = s.sched
      ∧ (s.slatesOn = true → t.fo pg.val 0x40 = s.fo pg.val 0x40 ∧ rk pg.val 0x40 ∈ t.reg.due)
      ∧ (s.slatesOn = false → t.fo pg.val 0x40 = v)
      ∧ (bit v 0 = true → bit (s.rd pg.val 0x40) 0 = false → s.heldByA pg.val = true →
          (t.unit pg.val).fencePending = true ∧ t.has pg.val 12 = true)
      ∧ (bit v 0 = false → (t.unit pg.val).fencePending = false))
  ∧ (∀ (c : Fin 224) (s : State), s.writable (pgPrime c.val) 0x70 1 = true →
      (s.slatesOn = true → exec (.mapCrcClr c) s = .next { s.begin with acts := s.acts ++ [.mapCrcClr c.val] })
      ∧ (s.slatesOn = false → ∃ t, exec (.mapCrcClr c) s = .next t ∧ (t.unit (pgPrime c.val)).mapCrc = 0))
  ∧ (∀ s : State, s.slatesOn = false →
      (s.writable pgGlobal 0x60 1 = true → ∃ t, exec .snap s = .next t ∧ t.reg.snapHeld = true
        ∧ ∀ pg off, countsEvents (rk pg off) = false → t.rd pg off = s.rd pg off)
      ∧ (s.writable pgGlobal 0x60 2 = true → ∃ t, exec .release s = .next t ∧ t.reg.snapHeld = false ∧ t.reg.cur = s.reg.cur))
  ∧ ∀ s : State, s.slatesOn = true →
      (s.writable pgGlobal 0x60 1 = true → bit (s.rd pgGlobal 0x60) 1 = false →
        ∃ t, exec .snap s = .next t ∧ SlateAct.snap ∈ t.acts ∧ SlateAct.release ∉ t.acts ∧ bit (t.rd pgGlobal 0x60) 0 = true)
      ∧ (s.writable pgGlobal 0x60 2 = true →
        ∃ t, exec .release s = .next t ∧ SlateAct.release ∈ t.acts ∧ SlateAct.snap ∉ t.acts ∧ bit (t.rd pgGlobal 0x60) 1 = true))

/-- R166: KAT_GO starts the known-answer block with the key and counter as they stand, and is refused while it is busy; the
block's end writes the four words of Philox4x32-10 (R161).  R355: a read of CERT_DATA shows the word that CERT_SEL names and
moves CERT_SEL to the next, back to 0 after the last; in a freeze it shows the held word and moves nothing. -/
def Obligations.KatAndCertificate : Prop :=
  (∀ s : State, s.writable pgCutter 0x80 1 = true →
    (s.units.kat.busy = false →
      exec .katGo s = .next { s.begin with units := { s.units with kat :=
        { busy := true, key0 := s.rd pgCutter 0x68, key1 := s.rd pgCutter 0x6C,
          ctr := (List.range 4).map fun k => s.rd pgCutter (0x70 + 4 * k) } } })
    ∧ (s.units.kat.busy = true → ∃ t, exec .katGo s = .next t ∧ AfterEvents s t ∧ t.has pgCutter evRefused = true))
  ∧ (∀ s : State, s.units.kat.busy = false → exec .katBlockDone s = .next s.begin)
  ∧ (∀ s : State, s.units.kat.busy = true →
      ∃ t, exec .katBlockDone s = .next t ∧ t.units.kat.busy = false
        ∧ (List.range 4).map (fun k => (t.rd pgCutter (0x84 + 4 * k)).toNat) = katWords s.units.kat)
  ∧ ∀ s : State, s.reaches 0x00B = true → (s.hdr 0x00B).rstBusy = false →
    (s.frozen 0x00B = true →
      exec .certDataRead s = .next (s.begin.emit (.readData (leBytes 4 (heldGet s 0x00B 0x44).toNat))))
    ∧ (s.frozen 0x00B = false → ∃ t, exec .certDataRead s = .next t ∧ t.out = [.readData (leBytes 4 (s.regValue 0x00B 0x44).toNat)]
        ∧ t.rdn 0x00B 0x40 = (if s.rdn 0x00B 0x40 = 1823 then 0 else (s.rdn 0x00B 0x40 + 1) % 2 ^ 32)
        ∧ t.stores = s.stores ∧ t.sec = s.sec)

/-! ### Resets, start-up, firmware and debug -/

/-- R385, R365, R384, R348: a power-on reset and MRST_N put every register at its reset value, end the slates and unload every
reel, and keep the fuses and the firmware store, but for a fuse whose burn they cut off; MRST_N holds start-up in stage 0 until it
is released, and after a trip until Tj is below T1.

R385, R257: WARM_RST takes its key and nothing else; the warm reset comes after the slate that follows, or at once
without slates, unloads every reel, disables every partition and ends its binding, keeps BLK_EVT_EN and the stores, and
enters start-up at stage 3; R348: the fuses change only by a burn that it cuts off. -/
def Obligations.Resets : Prop :=
  (let burnt (s t : State) : Prop := s.sec.counter ≤ t.sec.counter
    ∧ ((∀ p, p < 16 → (s.part p).burning = false) → t.sec.counter = s.sec.counter)
  (∀ (st : Option (Fin 256)) (s : State),
    ∃ t, exec (.powerOn st) s = .next t ∧ t.boot.stage = 0 ∧ t.boot.cause = 1 ∧ t.boot.straps = st ∧ t.slatesOn = false
      ∧ (∀ pg off, t.rd pg off = regReset (rk pg off)) ∧ t.sched.reels = [] ∧ (∀ i, t.desc i = {})
      ∧ (∀ a, t.rawMain a 1 = [0]) ∧ (∀ q, (t.part q).enabled = false) ∧ burnt s t
      ∧ t.sec.spares = s.sec.spares ∧ t.sec.svnFloor = s.sec.svnFloor ∧ t.sec.storeVer = s.sec.storeVer)
  ∧ (∀ s : State, exec .holdup s = if s.power.holdup then exec (.powerOn s.boot.straps) s else .next s.begin)
  ∧ (∀ s : State,
    ∃ t, exec .mrstN s = .next t ∧ t.boot.stage = 0 ∧ t.boot.mrstLow = true ∧ t.slatesOn = false
      ∧ (∀ pg off, t.rd pg off = regReset (rk pg off)) ∧ t.sched.reels = [] ∧ burnt s t
      ∧ t.sec.svnFloor = s.sec.svnFloor ∧ t.stores.main = s.stores.main ∧ t.power.tripCause = s.power.tripCause ∧ t.stores.badMain = s.stores.badMain)
  ∧ (∀ s : State, s.boot.mrstLow = false → exec .mrstNRelease s = .next s.begin)
  ∧ ∀ s : State, s.boot.mrstLow = true → s.boot.stage = 0 →
    ((s.power.tripped = false ∨ s.power.monTj < s.rungTemp 0) →
      ∃ t, exec .mrstNRelease s = .next t ∧ t.boot.stage = 1 ∧ t.boot.mrstLow = false ∧ t.power.domainOn = allDomains)
    ∧ (s.power.tripped = true → s.rungTemp 0 ≤ s.power.monTj →
      ∃ t, exec .mrstNRelease s = .next t ∧ t.boot.stage = 0 ∧ t.boot.mrstLow = false ∧ t.power = s.power))
  ∧ ((∀ (v : Word) (s : State), s.writable pgGlobal 0x50 v = true →
    (v = 0x57525354 → exec (.warmRst v) s = .next { s.begin with boot := { s.boot with warmReq := some s.clap.num } })
    ∧ (v ≠ 0x57525354 → ∃ t, exec (.warmRst v) s = .next t ∧ AfterEvents s t ∧ t.has pgGlobal evRefused = true))
  ∧ (∀ s : State, s.boot.warmReq = none → exec .warmReset s = .next s.begin)
  ∧ (∀ (n : Nat) (s : State), s.boot.warmReq = some n → s.slatePassed n = false → exec .warmReset s = .next s.begin)
  ∧ ∀ (n : Nat) (s : State), s.boot.warmReq = some n → s.slatePassed n = true →
    ∃ t, exec .warmReset s = .next t ∧ t.boot.stage = 3 ∧ t.boot.cause = 3 ∧ t.slatesOn = false ∧ t.sched.reels = []
      ∧ (∀ p, p < 16 → (t.part p).enabled = false ∧ (t.part p).bound = false)
      ∧ (∀ pg ∈ allPages, (t.hdr pg).evtEn = (s.hdr pg).evtEn ∧ t.has pg evResetDone = true ∧ (t.hdr pg).lock = false)
      ∧ t.stores.main = s.stores.main ∧ t.stores.park = s.stores.park
      ∧ ((∀ p, p < 16 → (s.part p).burning = false) → t.sec.counter = s.sec.counter))

/-- R388, R390, R413: the stages of start-up, in order: power, once MRST_N is high and after a trip below T1 (R378); straps and fuses, or stage 9 where a strap or a root is not
there; keys; links; firmware, or recovery without a valid image; the screen test, which fences every unit that failed. -/
def Obligations.StartUp : Prop :=
  (∀ (r : ScreenResult) (s : State), s.boot.stage ≠ 6 → exec (.screenTestDone r) s = .next s.begin)
  ∧ ∀ (o : StageOutcome) (s : State),
    (s.boot.stage = 0 →
      (s.boot.mrstLow = false → (s.power.tripped = false ∨ s.power.monTj < s.rungTemp 0) →
        ∃ t, exec (.startupStageDone o) s = .next t ∧ t.boot.stage = 1 ∧ t.power.domainOn = allDomains)
      ∧ (s.boot.mrstLow = true ∨ (s.power.tripped = true ∧ s.rungTemp 0 ≤ s.power.monTj) →
        exec (.startupStageDone o) s = .next s.begin))
    ∧ (6 ≤ s.boot.stage ∨ (s.boot.stage ≠ 0 ∧ s.power.tripped = true) → exec (.startupStageDone o) s = .next s.begin)
    ∧ (s.power.tripped = false → s.boot.stage = 1 →
      (∀ v, s.boot.straps = some v → o ≠ .fuseFault → s.sec.fuseState % 8 = 7 →
        ∃ t, exec (.startupStageDone o) s = .next t ∧ t.boot.stage = 2 ∧ t.boot.tray = v.val % 32
          ∧ t.boot.slot = v.val / 32 % 4 ∧ ((strapRead v.val).2.2 = true → t.has pgGlobal 8 = true))
      ∧ (s.boot.straps = none ∨ o = .fuseFault ∨ s.sec.fuseState % 8 ≠ 7 →
        ∃ t, exec (.startupStageDone o) s = .next t ∧ t.boot.stage = 9 ∧ t.power.domainOn = 1))
    ∧ (s.power.tripped = false → s.boot.stage = 2 → exec (.startupStageDone o) s = .next { s.begin with boot := { s.boot with stage := 3 } })
    ∧ (s.power.tripped = false → s.boot.stage = 3 → ∃ t, exec (.startupStageDone o) s = .next t ∧ t.boot.stage = 4 ∧ t.sec.keysReady = true
        ∧ t.sec.rngOk = true ∧ t.d2d.ready = true)
    ∧ (s.power.tripped = false → s.boot.stage = 4 → ∃ t, exec (.startupStageDone o) s = .next t ∧ t.boot.stage = 5
        ∧ (∀ m, m < 8 → (t.ctl m).up = if s.power.domainOn.testBit (23 + m / 4) then field (s.rd (pgMag m) 0x40) 0 4 else 0)
        ∧ (t.ctl 8).up = if s.power.domainOn.testBit 25 then field (s.rd pgPark 0x40) 0 8 else 0)
    ∧ (s.power.tripped = false → s.boot.stage = 5 → o ≠ .imageInvalid → s.sec.storeValid = true →
      ∃ t, exec (.startupStageDone o) s = .next t ∧ t.boot.stage = 6 ∧ t.script.stat = 2 ∧ t.script.ver = s.sec.storeVer
        ∧ t.script.svn = s.sec.storeSvn)
    ∧ (s.power.tripped = false → s.boot.stage = 5 → o = .imageInvalid ∨ s.sec.storeValid = false →
      ∃ t, exec (.startupStageDone o) s = .next t ∧ t.boot.stage = 8 ∧ t.script.stat = 0)
    ∧ (s.boot.stage = 6 → ∀ r : ScreenResult,
      ∃ t, exec (.screenTestDone r) s = .next t ∧ t.boot.stage = 7 ∧ t.has pgGaffer 27 = true
        ∧ t.boot.screenFail = decide (r.other % 256 ≠ 0)
        ∧ (∀ c ∈ r.primeFailed, c < 224 → t.fo (pgPrime c) 0x40 = 1 ∧ t.rd (pgPrime c) 0x40 = 1 ∧ t.has pgGaffer 28 = true)
        ∧ (∀ c ∈ r.drawFailed, c < 32 → t.fo (pgDraw c) 0x40 = 1 ∧ t.has pgGaffer 28 = true)
        ∧ ∀ c ∈ r.focusFailed, c < 16 → t.fo (pgFocus c) 0x40 = 1 ∧ t.has pgGaffer 28 = true)

/-- R54, R352, R353: FW_FAULT stops the script core's work; VERIFY and INSTALL copy the staged image and are refused while
one is in progress; the seal's judgement ends a verification, and only an image that passes is written; SVN_COMMIT, with
its key and outside recovery, raises the floor to the running image's number and never lowers it.  What has no VERIFY, no write
or no fault to end changes nothing.

R275, R284 and the SEC0 page: a stopped random generator raises its event, and what waits for it goes on once it runs. -/
def Obligations.FirmwareAndRandom : Prop :=
  ((∀ s : State, (s.script.stat ≠ 2 → exec .fwFault s = .next s.begin)
    ∧ (s.script.lateDue = false → exec .scriptLate s = .next s.begin)
    ∧ (s.sec.fwResult ≠ 1 ∨ s.sec.writing = true → exec .fwVerified s = .next s.begin)
    ∧ (s.sec.writing = false → ∀ ok, exec (.fwInstalled ok) s = .next s.begin))
  ∧ (∀ s : State, s.script.stat = 2 →
    ∃ t, exec .fwFault s = .next t ∧ AfterEvents { s with script := { s.script with stat := 3 } } t ∧ t.has pgScript 9 = true)
  ∧ (∀ s : State, s.script.lateDue = true →
    ∃ t, exec .scriptLate s = .next t ∧ AfterEvents { s with script := { s.script with lateDue := false } } t
      ∧ t.has pgScript 8 = true)
  ∧ (∀ s : State,
    (s.writable pgSec1 0x4C 1 = true → s.sec.fwResult ≠ 1 →
      ∃ t, exec .verify s = .next t ∧ t.sec.fwResult = 1 ∧ t.sec.fwInstall = false ∧ t.sec.storeValid = s.sec.storeValid
        ∧ t.sec.svnFloor = s.sec.svnFloor ∧ t.stores.main = s.stores.main)
    ∧ (s.writable pgSec1 0x4C 2 = true → s.sec.fwResult ≠ 1 →
      ∃ t, exec .install s = .next t ∧ t.sec.fwResult = 1 ∧ t.sec.fwInstall = true ∧ t.sec.storeValid = s.sec.storeValid
        ∧ t.sec.svnFloor = s.sec.svnFloor ∧ t.stores.main = s.stores.main)
    ∧ (s.writable pgSec1 0x4C 1 = true → s.sec.fwResult = 1 →
      ∃ t, exec .verify s = .next t ∧ AfterEvents s t ∧ t.has pgSec1 evRefused = true)
    ∧ (s.writable pgSec1 0x4C 2 = true → s.sec.fwResult = 1 →
      ∃ t, exec .install s = .next t ∧ AfterEvents s t ∧ t.has pgSec1 evRefused = true))
  ∧ (∀ s : State, s.sec.fwResult = 1 → s.sec.writing = false →
    (fwJudge s.sec.svnFloor s.sec.staged ≠ 2 →
      ∃ t, exec .fwVerified s = .next t ∧ t.sec.fwResult = fwJudge s.sec.svnFloor s.sec.staged ∧ t.sec.writing = false
        ∧ t.sec.storeValid = s.sec.storeValid ∧ t.has pgSec1 9 = true)
    ∧ (fwJudge s.sec.svnFloor s.sec.staged = 2 →
      ∃ t, exec .fwVerified s = .next t ∧ t.sec.writing = s.sec.fwInstall ∧ t.has pgSec1 8 = true
        ∧ t.sec.fwResult = (if s.sec.fwInstall then 1 else 2)))
  ∧ (∀ s : State, s.sec.writing = true →
    (∃ t, exec (.fwInstalled true) s = .next t ∧ t.sec.fwResult = 2 ∧ t.sec.storeValid = true ∧ t.sec.writing = false
      ∧ t.sec.storeSvn = leAt (s.sec.staged.getD []) 12 2 ∧ t.has pgSec1 10 = true)
    ∧ ∃ t, exec (.fwInstalled false) s = .next t ∧ t.sec.fwResult = 7 ∧ t.sec.storeValid = s.sec.storeValid
      ∧ t.sec.writing = false ∧ t.has pgSec1 11 = true)
  ∧ ∀ (v : Word) (s : State), s.writable pgSec1 0x50 v = true →
    (v.toNat = 0x434D5453 → s.boot.stage ≠ 8 → ∃ t, exec (.svnCommit v) s = .next t ∧ t.sec.svnFloor = max s.sec.svnFloor s.script.svn
      ∧ t.has pgSec1 12 = true ∧ t.sec.counter = s.sec.counter)
    ∧ (v.toNat ≠ 0x434D5453 ∨ s.boot.stage = 8 → ∃ t, exec (.svnCommit v) s = .next t ∧ AfterEvents s t ∧ t.has pgSec1 evRefused = true))
  ∧ ((∀ s : State, (s.sec.rngOk = false → exec .rngFail s = .next s.begin)
    ∧ (s.sec.rngOk = true ∨ s.sec.keysReady = false → exec .rngOk s = .next s.begin))
  ∧ (∀ s : State, s.sec.rngOk = true →
    ∃ t, exec .rngFail s = .next t ∧ AfterEvents { s with sec := { s.sec with rngOk := false } } t ∧ t.has pgSec0 10 = true)
  ∧ ∀ s : State, s.sec.rngOk = false → s.sec.keysReady = true →
    ∃ t, exec .rngOk s = .next t ∧ t.sec.rngOk = true ∧ t.links.waitEpoch = [] ∧ t.stores = s.stores)

/-- R358, R359: a debug session is counted and announced as it opens and as it closes, and one that is open or closed already is
not; the TAP holds and lets go the script core, takes the pins only while MRST_N is low, and shows no core state while a tenant
is enabled.

R358, R359: without a session a debug access does nothing, and behind a link that is down it meets a bus error.  A main-store
read shows the plaintext of partition 0's granules and every other granule as stored, with its parity unless all is clean
plaintext; a write reaches no other granule, and stores its bytes where no granule is bad.  A unit that holds a tenant's work
reads as zero and takes no write; one with a tenant's residue is zero-filled before it is read. -/
def Obligations.DebugAccess : Prop :=
  ((∀ (w : DebugPath) (s : State),
    (s.debugIsOpen w = false →
      (∃ t, exec (.debugOpen w) s = .next t ∧ t.debugIsOpen w = true ∧ t.sec.sessions = (s.sec.sessions + 1) % 2 ^ 32
        ∧ t.has pgSec0 11 = true ∧ t.stores = s.stores)
      ∧ exec (.debugClose w) s = .next s.begin)
    ∧ (s.debugIsOpen w = true →
      (∃ t, exec (.debugClose w) s = .next t ∧ t.debugIsOpen w = false ∧ t.has pgSec0 12 = true ∧ t.stores = s.stores)
      ∧ exec (.debugOpen w) s = .next s.begin))
  ∧ ∀ s : State, exec (.tapInstruction .idcode) s = .next s.begin ∧ exec (.tapInstruction .bypass) s = .next s.begin
    ∧ (∃ t, exec (.tapInstruction .haltCore) s = .next t ∧ t.script.coreHalted = true ∧ t.sec.coreHaltSeen = true
        ∧ t.sec.tapOpen = true)
    ∧ (∃ t, exec (.tapInstruction .resumeCore) s = .next t ∧ t.script.coreHalted = false ∧ t.sec.tapOpen = true)
    ∧ (∃ t b, exec (.tapInstruction .readCore) s = .next t ∧ t.sec.tapOpen = true ∧ t.script = s.script
        ∧ Output.readData b ∈ t.out ∧ b.length = 4 ∧ (s.anyTenant = true → b = zeros 4))
    ∧ (∃ t, exec (.tapInstruction .scan) s = .next t ∧ t.sec.tapOpen = true ∧ t.script = s.script ∧ t.stores = s.stores)
    ∧ (∃ t, exec (.tapInstruction .pinTaking) s = .next t ∧ t.sec.tapOpen = true
        ∧ (if s.boot.mrstLow then t.sec.pinTaken = true
           else t.sec.pinTaken = s.sec.pinTaken ∧ t.has pgSec0 13 = true)))
  ∧ ((∀ (wr : Bool) (x : DebugTarget) (d : Bytes) (s : State), s.sec.tapOpen = false → s.sec.consoleOpen = false →
    exec (.debugMemoryAccess wr x d) s = .next s.begin)
  ∧ (∀ (pa : Nat) (d : Bytes) (s : State), (s.sec.tapOpen = true ∨ s.sec.consoleOpen = true) → pa + d.length ≤ mainSize →
    let l := pieces pa d.length
    let down : Bool := l.any fun x => !(s.ctl (linkOf (x.1 * 64) / 4)).up.testBit (linkOf (x.1 * 64) % 4)
    let open' : Bool := l.all fun x => s.clearMain (x.1 * 64)
    let clean : Bool := l.all fun x => s.badMainAt x.1 = 0
    (down = true → ∀ wr, exec (.debugMemoryAccess wr (.mainStore pa) d) s = .next (s.begin.emit .accessError))
    ∧ (down = false →
      (∃ t, exec (.debugMemoryAccess false (.mainStore pa) d) s = .next t ∧ t.stores = s.stores
        ∧ (if open' && clean then Output.readData ((s.debugNine l).map fun x => BitVec.ofNat 8 x) else .readNine (s.debugNine l)) ∈ t.out)
      ∧ ∃ t, exec (.debugMemoryAccess true (.mainStore pa) d) s = .next t ∧ t.stores.park = s.stores.park
        ∧ (∀ b, b < pa ∨ pa + d.length ≤ b → t.seenMain b = s.seenMain b)
        ∧ (∀ b, s.clearMain (b / 64 * 64) = false → t.rawMain b 1 = s.rawMain b 1)
        ∧ (open' = true → clean = true → t.rawMain pa d.length = d)))
  ∧ ∀ (pg : Fin 4096) (off : Nat) (d : Bytes) (s : State), (s.sec.tapOpen = true ∨ s.sec.consoleOpen = true) →
    let tenants : Bool := match (s.unit pg.val).residue with | some p => decide (p ≠ 0) | none => false
    (s.ownerOf pg.val ≠ 0 →
      exec (.debugMemoryAccess true (.unitStore pg off) d) s = .next s.begin
      ∧ exec (.debugMemoryAccess false (.unitStore pg off) d) s
          = .next (s.begin.emit (.readData (List.replicate d.length 0))))
    ∧ (s.ownerOf pg.val = 0 → tenants = true →
      ∃ t, exec (.debugMemoryAccess false (.unitStore pg off) d) s = .next t ∧ t.out = [.readData (List.replicate d.length 0)]
        ∧ (t.unit pg.val).can = [] ∧ (t.unit pg.val).aux = [] ∧ (t.unit pg.val).ledgers = [] ∧ (t.unit pg.val).residue = none)
    ∧ (s.ownerOf pg.val = 0 → tenants = false → off < auxAt →
      exec (.debugMemoryAccess false (.unitStore pg off) d) s
        = .next (s.begin.emit (.readData (mgetMany memDefault (s.unit pg.val).can off d.length)))))

/-! ### Power and the PMBus -/

/-- R363–R366: what a feed does.  A feed that reaches its voltage is present and ends a hold-up, its soft start's end makes it
carry, a feed below 40 V or above its current limit carries no longer, is latched as a fault, and leaves the module on
hold-up where no feed carries.

R382: the reference clock's loss and return, each once, and a PLL that loses lock outside holdover.

R379–R381: ENTER is taken at the next slate where its conditions hold, and refused where they do not; the wrapped module
has no slates, no open port and no conversation; WAKE starts the return, also of an entry under way, at whose end the domains are powered and
the script core runs. -/
def Obligations.Supply : Prop :=
  (∀ (b : Bool) (s : State),
    (s.power.present b = true → exec (.feedPresent b) s = .next s.begin)
    ∧ (s.power.present b = false → exec (.feedLost b) s = .next s.begin)
    ∧ (s.power.present b = false ∨ s.power.carry b = true ∨ s.power.oc b = true → exec (.feedBack b) s = .next s.begin)
    ∧ (s.power.carry b = false → exec (.feedOc b) s = .next s.begin)
    ∧ (s.power.present b = false → ∃ t, exec (.feedPresent b) s = .next t ∧ t.power.present b = true ∧ t.power.carry b = false
      ∧ t.power.oc b = false ∧ t.power.holdup = false ∧ t.reg = s.reg)
    ∧ (s.power.present b = true → s.power.carry b = false → s.power.oc b = false →
      ∃ t, exec (.feedBack b) s = .next t ∧ t.power.carry b = true ∧ t.power.holdup = false ∧ t.power.lost b = false
        ∧ (s.power.lost b = true → t.has pgGaffer 9 = true))
    ∧ (s.power.present b = true → ∃ t, exec (.feedLost b) s = .next t ∧ t.power.present b = false ∧ t.power.carry b = false
        ∧ t.power.lost b = true ∧ t.has pgGaffer 8 = true ∧ t.power.stInput.testBit 4 = true
        ∧ t.power.carry (!b) = s.power.carry (!b) ∧ (s.power.carry (!b) = false → t.power.holdup = true)
        ∧ (s.power.carry (!b) = true → t.power.holdup = s.power.holdup))
    ∧ (s.power.carry b = true → ∃ t, exec (.feedOc b) s = .next t ∧ t.power.carry b = false ∧ t.power.oc b = true
        ∧ t.power.lost b = true ∧ t.has pgGaffer 10 = true ∧ t.power.stInput.testBit 2 = true
        ∧ (s.power.carry (!b) = false → t.power.holdup = true)
        ∧ (s.power.carry (!b) = true → t.power.holdup = s.power.holdup)))
  ∧ (∀ s : State,
    (s.power.refclk = false → exec .refclkLost s = .next s.begin)
    ∧ (s.power.refclk = true → exec .refclkBack s = .next s.begin)
    ∧ (s.power.clkHoldover = true → ∀ f, exec (.clock f) s = .next s.begin)
    ∧ (s.power.refclk = true → ∃ t, exec .refclkLost s = .next t ∧ t.has pgGaffer 23 = true
      ∧ AfterEvents { s with power := { s.power with refclk := false, clkHoldover := true } } t)
    ∧ (s.power.refclk = false → ∃ t, exec .refclkBack s = .next t ∧ t.has pgGaffer 24 = true
      ∧ AfterEvents { s with power := { s.power with refclk := true, clkHoldover := false } } t)
    ∧ (s.power.clkHoldover = false →
      (∃ t, exec (.clock true) s = .next t ∧ t.power.fabricLock = false ∧ t.power.arithLock = s.power.arithLock)
      ∧ ∃ t, exec (.clock false) s = .next t ∧ t.power.arithLock = false ∧ t.power.fabricLock = s.power.fabricLock))
  ∧ (∀ s : State,
    (s.writable pgGaffer 0x80 1 = true →
      (s.power.wrap = 3 → ∃ t, exec .enter s = .next t ∧ AfterEvents s t ∧ t.has pgGaffer evRefused = true)
      ∧ (s.power.wrap = 1 ∨ s.power.wrap = 2 → exec .enter s = .next s.begin))
    ∧ (s.power.wrap ≠ 1 → exec .wrapped s = .next s.begin)
    ∧ (s.power.wrap ≠ 3 → exec .woken s = .next s.begin)
    ∧ (s.writable pgGaffer 0x80 1 = true → s.power.wrap = 0 →
      (s.wrapOk = true → s.slatesOn = true →
        exec .enter s = .next { s.begin with power := { s.power with wrapReq := 1 } })
      ∧ (s.wrapOk = true → s.slatesOn = false →
        exec .enter s = .next { s.begin with power := { s.power with wrap := 1, wrapReq := 0 } })
      ∧ (s.wrapOk = false → ∃ t, exec .enter s = .next t ∧ AfterEvents s t ∧ t.has pgGaffer evRefused = true))
    ∧ (s.power.wrap = 1 →
      ∃ t, exec .wrapped s = .next t ∧ t.power.wrap = (if s.power.wakeAfterEntry then 3 else 2)
        ∧ bit (t.rd pgClapper 0x40) 0 = false ∧ t.slatesOn = false ∧ t.has pgGaffer 25 = true ∧ t.links.convs = []
        ∧ (∀ q, q < 9 → (t.port q).opened = false) ∧ t.power.domainOn = wrapDomains &&& s.power.domainOn
        ∧ t.stores = s.stores)
    ∧ (s.writable pgGaffer 0x80 2 = true →
      exec .wake s = .next { s.begin with power :=
        if s.power.wrap = 1 then { s.power with wakeAfterEntry := true }
        else if s.power.wrap = 2 then { s.power with wrap := 3 } else s.power })
    ∧ (s.power.wrap = 3 →
      ∃ t, exec .woken s = .next t ∧ t.power.wrap = 0 ∧ t.script.stat = 2 ∧ t.has pgGaffer 26 = true
        ∧ t.power.domainOn = allDomains - (s.power.ocDomain &&& allDomains) ∧ t.stores.main = s.stores.main))

/-- R368, R369, R378, once in an incident: a raised domain is ready with its units empty; a domain over its current limit is removed and its work
halts, or the module trips where it is one of AON, SEC, SCHED or D2D; the 115 °C comparator trips the module: TAKE is
released and every domain but AON goes. -/
def Obligations.PowerDomains : Prop :=
  (∀ (d : Fin 30) (s : State), s.power.domainOn.testBit d.val = true → s.power.domainReady.testBit d.val = false →
    ∃ t, exec (.domainReady d) s = .next t
      ∧ (s.power.gateWait.testBit d.val = false → t.power.domainReady.testBit d.val = true)
      ∧ ∀ pg ∈ allPages, pageDomain pg = d.val →
          (t.unit pg).can = [] ∧ (t.unit pg).aux = [] ∧ (t.unit pg).ledgers = [] ∧ (t.unit pg).residue = none)
  ∧ (∀ (d : Fin 30) (s : State), s.power.domainOn.testBit d.val = false ∨ s.power.domainReady.testBit d.val = true →
    exec (.domainReady d) s = .next s.begin)
  ∧ (∀ (d : Fin 30) (s : State), s.power.domainOn.testBit d.val = false ∨ s.power.tripped = true →
    exec (.domainOc d) s = .next s.begin)
  ∧ (∀ (tj : Int) (s : State), s.power.tripped = true → exec (.thermalTrip tj) s = .next s.begin)
  ∧ (∀ (d : Fin 30) (s : State), s.power.domainOn.testBit d.val = true → s.power.tripped = false →
    ∃ t, exec (.domainOc d) s = .next t ∧ t.has pgGaffer 11 = true
      ∧ (d.val = 0 ∨ d.val = 1 ∨ d.val = 2 ∨ d.val = 28 →
          t.power.tripped = true ∧ t.power.tripCause = 2 ∧ t.power.tripDomain = d.val ∧ t.power.domainOn = 1
          ∧ t.twin.drive = false)
      ∧ (d.val ≠ 0 → d.val ≠ 1 → d.val ≠ 2 → d.val ≠ 28 →
          t.power.tripped = false ∧ t.power.domainOn.testBit d.val = false ∧ t.power.ocDomain.testBit d.val = true
          ∧ ∀ i ∈ t.sched.items, pageDomain i.page = d.val → i.st ≠ .running ∧ i.st ≠ .waiting))
  ∧ ∀ (tj : Int) (s : State), s.power.tripped = false →
    ∃ t, exec (.thermalTrip tj) s = .next t ∧ t.power.tripped = true ∧ t.power.tripCause = 1 ∧ t.power.tripTj = tj
      ∧ t.power.domainOn = 1 ∧ t.twin.drive = false ∧ t.d2d.up = false ∧ t.links.convs = []

/-- R371: an evaluation slate moves the level in force by at most one: up, with CAP_OVER once per episode, where P is above
the effective cap, down where the level below fits under the cap less the hysteresis, and to 0, without SHED_ORDER.

R376, R377: a sample brings every rung of the ladder into force whose temperature it reaches, each with its event, and
AIRFLOW_SUSPECT where the outlet is more than 20 °C above the inlet or the inlet above 45 °C; a rung leaves force 3 °C below
its temperature, and the last one to leave raises T_CLEAR. -/
def Obligations.CapAndLadder : Prop :=
  (∀ (x : PowerSample) (s : State), (s.power.evalDue = false → exec (.evaluationSlate x) s = .next s.begin)
  ∧ (s.power.evalDue = true →
    (s.shedUnderCap = false → ∃ t, exec (.evaluationSlate x) s = .next t ∧ t.power.level = 0 ∧ t.power.evalDue = false
      ∧ (s.effCap < x.avg → t.has pgGaffer 12 = true))
    ∧ (s.shedUnderCap = true → s.effCap < x.avg → s.power.level < 4 →
      ∃ t, exec (.evaluationSlate x) s = .next t ∧ t.power.level = s.power.level + 1 ∧ t.power.episode = true
        ∧ (s.power.episode = false → t.has pgGaffer 12 = true) ∧ t.has pgGaffer 15 = true)
    ∧ (s.shedUnderCap = true → s.effCap < x.avg → 4 ≤ s.power.level →
      ∃ t, exec (.evaluationSlate x) s = .next t ∧ t.power.level = s.power.level
        ∧ (s.power.unmet = false → t.has pgGaffer 14 = true))
    ∧ (s.shedUnderCap = true → x.avg ≤ s.effCap →
      let below := (mget (fun _ => none) s.power.recs (s.power.level - 1)).getD x.avg
      ∃ t, exec (.evaluationSlate x) s = .next t ∧ t.power.episode = false ∧ (s.power.episode = true → t.has pgGaffer 13 = true)
        ∧ t.power.level = (if 1 ≤ s.power.level ∧ below + field (s.rd pgGaffer 0x48) 0 7 ≤ s.effCap then s.power.level - 1
            else s.power.level))))
  ∧ ((∀ (x : SensorSample) (s : State),
    ∃ t, exec (.junctionSample x) s = .next t ∧ t.power.tj = x.tj ∧ t.power.inlet = x.inlet ∧ t.power.outlet = x.outlet
      ∧ (∀ r, r < 4 → t.power.rungs.testBit r = (s.power.rungs.testBit r || decide (s.rungTemp r ≤ x.tj)))
      ∧ (∀ r, r < 4 → s.power.rungs.testBit r = false → s.rungTemp r ≤ x.tj → t.has pgGaffer (16 + r) = true)
      ∧ t.power.flowSuspect = (decide (x.inlet + 20 < x.outlet) || decide (45 < x.inlet))
      ∧ (t.power.flowSuspect = true → s.power.flowSuspect = false → t.has pgGaffer 21 = true))
  ∧ (∀ (r : Fin 4) (s : State), s.power.rungs.testBit r.val = false ∨ s.rungTemp r.val - 3 ≤ s.power.tj →
    exec (.tClear r) s = .next s.begin)
  ∧ ∀ (r : Fin 4) (s : State), s.power.rungs.testBit r.val = true → s.power.tj < s.rungTemp r.val - 3 →
    ∃ t, exec (.tClear r) s = .next t
      ∧ AfterEvents { s with power := { s.power with rungs := clearBit s.power.rungs r.val } } t
      ∧ (t.power.rungs = 0 → t.has pgGaffer 20 = true))

/-- R419: before the end of stage 1 no address is acknowledged, and nothing changes; after it a reading command answers, and
restarts the watchdog, and changes nothing else.

R420: the answers of the commands whose words the rule gives, and of those whose number the rule gives; the LINEAR11
exponent and the places of STATUS_WORD's bits are the model's choices (log entries 20 and 21).

The LINEAR11 word of a whole number within its mantissa is that number (R420; log entry 20).

R419, R420, R373, R375: OPERATION reads the Wrap state and writes WAKE or ENTER, STATUS_CML taking what is refused or no
value of it, MFR_POWER_CAP writes CAP in its range, whether or not there is a way to BAR0, CLEAR_FAULTS clears what no longer stands, an unsupported code is not acknowledged and sets STATUS_CML, and the Alert
Response Address is answered while a status bit stands. -/
def Obligations.PmbusCommands : Prop :=
  ((∀ (c : Instr) (s : State), pmbusRow c = true ∨ c = .alertResponse → s.pmbusUp = false →
    exec c s = .next (s.begin.emit .pmbusNak))
  ∧ ∀ c ∈ pmbusReads, ∀ s : State, s.pmbusUp = true →
    ∃ b, exec c s = .next (s.begin.pmbusSeen.emit (.pmbus b)) ∧ b ≠ [])
  ∧ (∀ s : State, s.pmbusUp = true → let q := s.begin.pmbusSeen
    exec .capability s = .next (q.emit (.pmbus [0xB0]))
    ∧ exec .pmbusRevision s = .next (q.emit (.pmbus [0x44]))
    ∧ exec .mfrId s = .next (q.emit (.pmbus [5, 0x46, 0x45, 0x52, 0x45, 0x46]))
    ∧ exec .mfrModel s = .next (q.emit (.pmbus [7, 0x5A, 0x58, 0x39, 0x2D, 0x34, 0x35, 0x30]))
    ∧ exec .mfrStart s = .next (q.emit (.pmbus (leBytes 1 (s.boot.stage + 16 * b2n s.boot.screenPass + 32 * b2n s.boot.screenFail))))
    ∧ exec .mfrLevel s = .next (q.emit (.pmbus (leBytes 1 (s.power.level + 8 * s.rung))))
    ∧ exec .statusCml s = .next (q.emit (.pmbus (leBytes 1 s.power.stCml)))
    ∧ exec .readTemperature3 s = .next (q.emit (.pmbus (leBytes 2 (linear11 s.power.tj 1))))
    ∧ exec .readPin s = .next (q.emit (.pmbus (leBytes 2 (linear11 (s.power.pinMs : Nat) 1))))
    ∧ exec .readTemperature1 s = .next (q.emit (.pmbus (leBytes 2 (linear11 s.power.inlet 1))))
    ∧ exec .readTemperature2 s = .next (q.emit (.pmbus (leBytes 2 (linear11 s.power.outlet 1))))
    ∧ exec .readVin s = .next (q.emit (.pmbus (leBytes 2 (linear11 (max s.power.meterA.volt s.power.meterB.volt : Nat) 100))))
    ∧ exec .readIin s = .next (q.emit (.pmbus (leBytes 2 (linear11 (s.power.meterA.amp + s.power.meterB.amp : Nat) 100))))
    ∧ exec .mfrFeedA s = .next (q.emit (.pmbus (4 :: feedBlock s.power.meterA)))
    ∧ exec .mfrFeedB s = .next (q.emit (.pmbus (4 :: feedBlock s.power.meterB)))
    ∧ exec .statusInput s = .next (q.emit (.pmbus (leBytes 1 (s.power.stInput ||| b2n s.power.unmet))))
    ∧ exec .statusTemperature s = .next (q.emit (.pmbus (leBytes 1
        (s.power.stTemp ||| (if s.power.rungs.testBit 3 then 64 else 0)))))
    ∧ exec .statusWord s = .next (q.emit (.pmbus (leBytes 2 s.statusWord)))
    ∧ ∃ b : Bytes, b.length = 32 ∧ exec .mfrSerial s = .next (q.emit (.pmbus (32 :: b))))
  ∧ (∀ n : Int, -1023 ≤ n → n ≤ 1023 → linear11Whole (linear11 n 1) = n)
  ∧ (∀ s : State, s.pmbusUp = true → let q := s.begin.pmbusSeen
    (∀ v, exec (.operation false v) s = .next (q.emit (.pmbus [if s.power.wrap = 0 ∨ s.power.wrap = 3 then 0x80 else 0])))
    ∧ (s.accepts pgGaffer 0x80 2 = true →
      ∃ t, exec (.operation true 0x80) s = .next t ∧ t.reg = s.reg ∧ t.power.stCml = s.power.stCml
        ∧ t.power.wrap = (if s.power.wrap = 2 then 3 else s.power.wrap)
        ∧ (s.power.wrap = 1 → t.power.wakeAfterEntry = true))
    ∧ (∀ v, v = 0 ∨ v = 0x40 → s.accepts pgGaffer 0x80 1 = true → s.power.wrap = 0 →
      (s.wrapOk = true → ∃ t, exec (.operation true v) s = .next t ∧ t.power.stCml = s.power.stCml
        ∧ (if s.slatesOn then t.power.wrapReq = 1 else t.power.wrap = 1))
      ∧ (s.wrapOk = false → ∃ t, exec (.operation true v) s = .next t ∧ t.power.stCml.testBit 6 = true
        ∧ t.power.wrap = 0 ∧ t.has pgGaffer evRefused = true))
    ∧ (∀ v, v ≠ 0x80 → v ≠ 0 → v ≠ 0x40 →
      ∃ t, exec (.operation true v) s = .next t ∧ t.power.stCml.testBit 6 = true ∧ t.reg = s.reg)
    ∧ (∀ v, exec (.mfrPowerCap false v) s = .next (q.emit (.pmbus (leBytes 2 (linear11 (field (s.rd pgGaffer 0x44) 0 9 : Nat) 1)))))
    ∧ (∀ v : BitVec 16, 100 ≤ linear11Whole v.toNat → linear11Whole v.toNat ≤ 450 →
        s.accepts pgGaffer 0x44 (word (linear11Whole v.toNat).toNat) = true →
      ∃ t, exec (.mfrPowerCap true v) s = .next t ∧ t.rd pgGaffer 0x44 = word (linear11Whole v.toNat).toNat
        ∧ t.power.stCml = s.power.stCml)
    ∧ (∀ v : BitVec 16, linear11Whole v.toNat < 100 ∨ 450 < linear11Whole v.toNat →
      ∃ t, exec (.mfrPowerCap true v) s = .next t ∧ t.reg = s.reg ∧ t.power.stCml.testBit 6 = true)
    ∧ (∃ t, exec .clearFaults s = .next t ∧ t.power.stCml = 0 ∧ t.reg = s.reg
        ∧ (s.power.presentA = true → s.power.presentB = true → s.power.holdup = false → s.power.ocA = false → s.power.ocB = false →
            t.power.stInput = 0))
    ∧ (∀ c : Byte, pmbusCodes.contains c.toNat = true → exec (.pmbusUnsupported c) s = .next q)
    ∧ (∀ c : Byte, pmbusCodes.contains c.toNat = false →
      ∃ t, exec (.pmbusUnsupported c) s = .next t ∧ t.out = [.pmbusNak] ∧ t.power.stCml.testBit 7 = true ∧ t.reg = s.reg)
    ∧ (s.statusWord = 0 → exec .alertResponse s = .next (q.emit .pmbusNak))
    ∧ (s.statusWord ≠ 0 →
      exec .alertResponse s = .next (q.emit (.arbAddress
        (if s.boot.strapErr = true ∨ s.boot.stage = 9 then 0x6C else 0x60 + s.boot.slot)))))

/-- R375: PMBUS_WDOG seconds without a transaction raise PMBUS_SILENT, once, and change nothing else; the next transaction
lets it be raised again. -/
def Obligations.PmbusWatchdog : Prop :=
  (∀ s : State, field (s.rd pgGaffer 0x88) 0 16 ≠ 0 → s.power.pmbusSilent = false →
    ∃ t, exec .pmbusSilent s = .next t ∧ t.has pgGaffer 22 = true
      ∧ AfterEvents { s with power := { s.power with pmbusSilent := true } } t)
  ∧ (∀ s : State, field (s.rd pgGaffer 0x88) 0 16 = 0 ∨ s.power.pmbusSilent = true →
      exec .pmbusSilent s = .next s.begin)
  ∧ ∀ (c : Instr) (s t : State), pmbusRow c = true → s.pmbusUp = true → exec c s = .next t →
      t.power.pmbusSilent = false

/-! ### The director die -/

/-- R223–R226, R236: training brings the link up at the lower rate of the modules that trained, or leaves it down; a flit
that fails its check is counted, and takes the link down where its retry failed; an integrity failure closes it.  No training
starts before READY, without random numbers or without power.

R229, R232, R233: a decoder is committed only at the window's own size; a snoop is answered RspIHitI; a response ends one
back-invalidate of its granule.  A link that carries no flits carries none of them. -/
def Obligations.DirectorLink : Prop :=
  ((∀ (r : TrainResult) (s : State), s.d2d.ready = false ∨ s.sec.rngOk = false ∨ s.pageOn pgD2d = false →
    exec (.linkTraining r) s = .next s.begin)
  ∧ (∀ s : State, s.linkLive = false → exec .ideFail s = .next s.begin ∧ ∀ f, exec (.flitCrcError f) s = .next s.begin)
  ∧ (∀ (r : TrainResult) (s : State), s.d2d.ready = true → s.sec.rngOk = true → s.pageOn pgD2d = true →
    (rateOf r.m0 = 0 → rateOf r.m1 = 0 → ∃ t, exec (.linkTraining r) s = .next t ∧ t.d2d.up = false
      ∧ (s.d2d.up = true → t.has pgD2d 9 = true))
    ∧ (rateOf r.m0 ≠ 0 ∨ rateOf r.m1 ≠ 0 →
      ∃ t, exec (.linkTraining r) s = .next t ∧ t.d2d.up = true ∧ t.d2d.ide = 1 ∧ t.has pgD2d 8 = true
        ∧ (rateOf r.m0 ≠ 0 → t.d2d.speed ≤ rateOf r.m0) ∧ (rateOf r.m1 ≠ 0 → t.d2d.speed ≤ rateOf r.m1) ∧ t.d2d.speed ≠ 0
        ∧ (¬ (rateOf r.m0 = 2 ∧ rateOf r.m1 = 2) → t.has pgD2d 10 = true)
        ∧ t.rd pgD2d 0x44 = satAdd (s.rd pgD2d 0x44) 1))
  ∧ ∀ s : State, s.linkLive = true →
    (∃ t, exec (.flitCrcError true) s = .next t ∧ t.d2d.up = false ∧ t.has pgD2d 9 = true
      ∧ t.rd pgD2d 0x48 = satAdd (s.rd pgD2d 0x48) 1)
    ∧ exec (.flitCrcError false) s = .next ((s.begin.count pgD2d 0x48 1).count pgD2d 0x4C 1)
    ∧ ∃ t, exec .ideFail s = .next t ∧ t.linkLive = false ∧ t.has pgD2d 11 = true
        ∧ t.rd pgD2d 0x50 = satAdd (s.rd pgD2d 0x50) 1 ∧ t.stores = s.stores)
  ∧ ((∀ (d : Fin 16) (base size : Nat) (s : State), s.linkLive = false →
    exec (.hdmCommit d base size) s = .next s.begin ∧ exec .h2dSnoop s = .next s.begin)
  ∧ (∀ (d : Fin 16) (base size : Nat) (s : State), s.linkLive = true →
    (s.msChunks d.val ≠ 0 → size = (s.msChunks d.val + 1) * chunk →
      exec (.hdmCommit d base size) s = .next { s.begin with d2d := { s.d2d with
        decoders := mset (fun _ => none) s.d2d.decoders d.val (some base) } })
    ∧ (s.msChunks d.val = 0 ∨ size ≠ (s.msChunks d.val + 1) * chunk →
      ∃ t, exec (.hdmCommit d base size) s = .next t ∧ AfterEvents s t ∧ t.has pgD2d 14 = true))
  ∧ (∀ s : State, s.linkLive = true → exec .h2dSnoop s = .next (s.begin.emit .rspIHitI))
  ∧ (∀ (g : Nat) (s : State), (s.d2d.bisnp.find? fun x => x.1 = g) = none →
    exec (.backInvalidateResponse g) s = .next s.begin)
  ∧ ∀ (g : Nat) (x : Nat × Bool) (s : State), (s.d2d.bisnp.find? fun x => x.1 = g) = some x →
    exec (.backInvalidateResponse g) s = .next { s.begin with d2d := { s.d2d with bisnp := s.d2d.bisnp.erase x } })

/-- R142, R230, R231, R234: an access inside an open window to a granule of the window's partition, behind a link that is up, reads
the store's bytes or writes its own, and no other byte of the main store changes; a read of a bad granule is poisoned, and a
poisoned write leaves its granule poisoned, with CRYPT_PARITY and WINDOW_ERR; the descriptors are read in the same way.  Behind a
link that is down a read answers poison and a write does nothing.

R230, R142: an access outside a window, or with none open, is refused with WINDOW_ERR: a read returns poisoned data, a
write is dropped; a write of a descriptor is dropped with CTX_WRITE; a link that carries no flits carries no access. -/
def Obligations.CxlAccesses : Prop :=
  (∀ (m : MemReq) (s : State), s.linkLive = true → s.windowOpen m.decoder.val = true →
    let p := m.decoder.val
    let o := m.off - s.msSize p
    let pa := if m.off < s.msSize p then (s.msBase p + m.off) / 64 * 64 else s.ctxFirst p * 256 + o / 64 * 64
    let up : Bool := (s.ctl (linkOf pa / 4)).up.testBit (linkOf pa % 4)
    m.off < s.msSize p + s.ctxCount p * 256 → s.ownerMain pa = some p → (s.part p).heldForScrub = false →
    (m.write = false →
      (up = false → ∃ t, exec (.cxlMemAccess m) s = .next t ∧ Output.cxlData (zeros 64) true ∈ t.out ∧ t.stores = s.stores)
      ∧ (up = true → s.stores.reported.contains (pa / 64) = false → (s.reh.live.find? fun i => i.page = pgMag (linkOf pa / 4)) = none →
        ∃ t, exec (.cxlMemAccess m) s = .next t ∧ t.stores = s.stores
          ∧ Output.cxlData (s.rawMain pa 64) (decide (s.badMainAt (pa / 64) ≠ 0)) ∈ t.out))
    ∧ (m.write = true → m.off < s.msSize p → m.off % 64 + m.data.length ≤ 64 → 0 < m.data.length →
      (up = false → m.poison = false →
        ∃ t, exec (.cxlMemAccess m) s = .next t ∧ t.stores = s.stores ∧ Output.cxlDone ∉ t.out)
      ∧ (up = true → s.stores.reported.contains (pa / 64) = false → (m.data.length = 64 ∨ s.badMainAt (pa / 64) = 0) →
        ∃ t, exec (.cxlMemAccess m) s = .next t ∧ Output.cxlDone ∈ t.out
          ∧ t.rawMain (s.msBase p + m.off) m.data.length = m.data ∧ mainOutside s t (s.msBase p + m.off) m.data.length
          ∧ t.badMainAt (pa / 64) = (if m.poison then poison else 0)
          ∧ (m.poison = true → t.has (pgMag (linkOf pa / 4)) 11 = true ∧ t.has pgD2d 12 = true))))
  ∧ (∀ (m : MemReq) (s : State), (s.linkLive = false → exec (.cxlMemAccess m) s = .next s.begin)
  ∧ (s.linkLive = true →
    (s.windowOpen m.decoder.val = false ∨
        s.msSize m.decoder.val + s.ctxCount m.decoder.val * 256 ≤ m.off →
      ∃ t, exec (.cxlMemAccess m) s = .next t ∧ t.has pgD2d 12 = true ∧ t.stores = s.stores
        ∧ AfterEvents (s.count pgD2d 0x78 1) t ∧ (m.write = false → Output.cxlData (zeros 64) true ∈ t.out))
    ∧ (s.windowOpen m.decoder.val = true → s.msSize m.decoder.val ≤ m.off →
        m.off < s.msSize m.decoder.val + s.ctxCount m.decoder.val * 256 → m.write = true →
      ∃ t, exec (.cxlMemAccess m) s = .next t ∧ t.has pgD2d 13 = true ∧ AfterEvents (s.count pgD2d 0x78 1) t)))

/-- R230, R231: whatever a CXL.mem access does, it changes no byte of the main store outside its own partition's range, and
none of the park tier, and no context. -/
def Obligations.CxlIsolation : Prop :=
  ∀ (m : MemReq) (s t : State), exec (.cxlMemAccess m) s = .next t →
    mainOutside s t (s.msBase m.decoder.val) (s.msSize m.decoder.val) ∧ t.stores.park = s.stores.park
    ∧ t.script = s.script ∧ t.sched = s.sched ∧ t.links = s.links

/-- R238, R354: a GET_REPORT of an enabled partition holds the mailbox until the report is signed; the report answers it, and
keeps its nonce for a BIND.  A mailbox that is busy, or that the link does not carry, takes no request.

R238, R239, R349: BIND is answered with the first failing check's status, and an accepted one waits for the slate, or takes
effect at once without slates; BOUND then answers it, unless it was aborted, and the binding has the next BIND_EPOCH, which never
decreases (at its largest value it stays, log entry 60).

R240, R241, R242: UNBIND ends a binding of the DOMAIN that it names, at the slate or at once without slates, and UNBOUND answers
it unless it was aborted; any other is answered with its status.  GET_STATE answers at once.  A DOE abort empties the mailbox,
and an UNBIND that still waits for its slate goes with it; a BIND does not. -/
def Obligations.Admission : Prop :=
  ((∀ (n : Nat) (m : DoeMsg) (s : State), s.doeFree = false → exec (.getReport n m) s = .next (s.begin.at n))
  ∧ (∀ (n : Nat) (s : State), s.d2d.reportBody = none → exec (.report n) s = .next (s.begin.at n))
  ∧ (∀ (n : Nat) (m : DoeMsg) (s : State), s.doeFree = true →
    (badMsg m 1 64 = true → ∃ t, exec (.getReport n m) s = .next t ∧ t.d2d.doe = none
      ∧ Output.doe { msg := m.msg % 128 + 0x80, part := m.part, status := 1, payload := [] } ∈ t.out)
    ∧ (badMsg m 1 64 = false → s.notEnabled m.part = true → ∃ t, exec (.getReport n m) s = .next t ∧ t.d2d.doe = none
      ∧ Output.doe { msg := 0x81, part := m.part, status := 2, payload := [] } ∈ t.out)
    ∧ (badMsg m 1 64 = false → s.notEnabled m.part = false →
      ∃ t b, exec (.getReport n m) s = .next t ∧ t.d2d.doe = some (m, n) ∧ t.d2d.reportBody = some (m.part, m.payload, b)
        ∧ t.reg = s.reg ∧ t.stores = s.stores))
  ∧ ∀ (n p : Nat) (nonce body : Bytes) (s : State), s.d2d.reportBody = some (p, nonce, body) →
    ∃ t, exec (.report n) s = .next t ∧ t.d2d.doe = none ∧ t.d2d.reportBody = none
      ∧ Output.doe { msg := 0x81, part := p, status := 0, payload := signReport body } ∈ t.out
      ∧ (t.part p).nonce = some (nonce, n) ∧ t.stores = s.stores)
  ∧ (let took (s t : State) (p d : Nat) : Prop := (t.part p).bound = true ∧ (t.part p).domain = d ∧ (t.part p).bindReq = none
    ∧ (t.part p).bindEpoch = min ((s.part p).bindEpoch + 1) (2 ^ 32 - 1) ∧ t.has (pgPart p) 12 = true ∧ t.stores = s.stores
  let answer (t : State) (p : Nat) : Prop :=
    Output.doe { msg := 0x82, part := p, status := 0, payload := leBytes 4 (t.part p).bindEpoch } ∈ t.out ∧ t.d2d.doe = none
  (∀ (n : Nat) (m : DoeMsg) (s : State), s.doeFree = false → exec (.bind n m) s = .next (s.begin.at n))
  ∧ (∀ (n : Nat) (m : DoeMsg) (s : State), s.doeFree = true →
    (s.bindStatus n m ≠ 0 → ∃ t, exec (.bind n m) s = .next t ∧ t.d2d.doe = none ∧ t.parts = s.parts
      ∧ Output.doe { msg := m.msg % 128 + 0x80, part := m.part, status := s.bindStatus n m, payload := [] } ∈ t.out)
    ∧ (s.bindStatus n m = 0 → s.slatesOn = true →
      ∃ t, exec (.bind n m) s = .next t ∧ t.d2d.doe = some (m, n) ∧ t.reg = s.reg
        ∧ (t.part m.part).bindReq = some (leAt m.payload 0 8, s.clap.num) ∧ (t.part m.part).bound = (s.part m.part).bound)
    ∧ (s.bindStatus n m = 0 → s.slatesOn = false →
      ∃ t, exec (.bind n m) s = .next t ∧ took s t m.part (leAt m.payload 0 8) ∧ answer t m.part))
  ∧ ∀ (p : Fin 16) (s : State),
    ((s.part p.val).bindReq = none → exec (.bound p) s = .next s.begin)
    ∧ ∀ d k, (s.part p.val).bindReq = some (d, k) →
      (s.slatePassed k = false → exec (.bound p) s = .next s.begin)
      ∧ (s.slatePassed k = true → ∃ t, exec (.bound p) s = .next t ∧ took s t p.val d
        ∧ ∀ m n, s.d2d.doe = some (m, n) → if m.msg = 2 ∧ m.part = p.val then answer t p.val else t.d2d.doe = s.d2d.doe))
  ∧ (let ended (t : State) (p : Nat) : Prop := (t.part p).bound = false ∧ (t.part p).unbindReq = none
  let answer (t : State) (p : Nat) : Prop :=
    Output.doe { msg := 0x83, part := p, status := 0, payload := [] } ∈ t.out ∧ t.d2d.doe = none
  (∀ (m : DoeMsg) (s : State), s.doeFree = false →
    exec (.unbind m) s = .next s.begin ∧ exec (.getState m) s = .next s.begin)
  ∧ (∀ (m : DoeMsg) (s : State), s.doeFree = true →
    let st := if badMsg m 3 8 then 1 else if m.part = 0 then 6
      else if (s.part m.part).bound = false ∨ (s.part m.part).domain ≠ leAt m.payload 0 8 then 5 else 0
    (st ≠ 0 → ∃ t, exec (.unbind m) s = .next t ∧ t.parts = s.parts ∧ t.d2d.doe = none
      ∧ Output.doe { msg := m.msg % 128 + 0x80, part := m.part, status := st, payload := [] } ∈ t.out)
    ∧ (st = 0 → s.slatesOn = true → ∃ t, exec (.unbind m) s = .next t ∧ t.d2d.doe = some (m, s.now)
      ∧ (t.part m.part).unbindReq = some s.clap.num ∧ (t.part m.part).bound = true)
    ∧ (st = 0 → s.slatesOn = false → ∃ t, exec (.unbind m) s = .next t ∧ ended t m.part ∧ answer t m.part
      ∧ t.has (pgPart m.part) 13 = true))
  ∧ (∀ (p : Fin 16) (s : State),
    ((s.part p.val).unbindReq = none → exec (.unbound p) s = .next s.begin)
    ∧ ∀ k, (s.part p.val).unbindReq = some k →
      (s.slatePassed k = false → exec (.unbound p) s = .next s.begin)
      ∧ (s.slatePassed k = true → ∃ t, exec (.unbound p) s = .next t ∧ ended t p.val ∧ t.stores = s.stores
        ∧ ((s.part p.val).bound = true → t.has (pgPart p.val) 13 = true)
        ∧ ∀ m n, s.d2d.doe = some (m, n) → m.msg = 3 → m.part = p.val → answer t p.val))
  ∧ (∀ (m : DoeMsg) (s : State), s.doeFree = true →
    ∃ t, exec (.getState m) s = .next t ∧ t.d2d.doe = none ∧ t.parts = s.parts
      ∧ (if badMsg m 4 0 then Output.doe { msg := m.msg % 128 + 0x80, part := m.part, status := 1, payload := [] }
         else Output.doe { msg := 0x84, part := m.part, status := 0, payload := s.statePayload }) ∈ t.out)
  ∧ ∀ s : State, ∃ t, exec .doeAbort s = .next t ∧ t.d2d.doe = none ∧ t.d2d.reportBody = none ∧ t.reg = s.reg ∧ t.stores = s.stores
      ∧ ∀ p, (t.part p).bindReq = (s.part p).bindReq ∧ (t.part p).bound = (s.part p).bound
        ∧ (t.part p).unbindReq = (match s.d2d.doe with
          | some (m, _) => if m.msg = 3 ∧ m.part = p ∧ s.closing p = false then none else (s.part p).unbindReq
          | none => (s.part p).unbindReq))

/-! ### Ports and conversations -/

/-- R269, R275–R277, R280: a port's link comes up and goes down; its salt is announced; a salt installs a key for an AN
without one, replaces a key that does not work, and changes nothing where it repeats a key or the active key still works; more
than MAC_LIMIT failures within a millisecond are a storm; a frame dropped before the protocol is counted.  A port that is
closed or down does none of this.

R274, R277, R280: a protected frame of any type: none is taken on a port that is closed or down; one without a key or with
a bad ICV is counted and raises MAC_FAIL; one outside the replay window is counted; one that authenticates but is not formed
as its type asks raises PROTO_ERR and is counted.  None of these reaches a conversation. -/
def Obligations.PortEvents : Prop :=
  ((∀ (q : Fin 9) (s : State),
    ((s.port q.val).opened = true → (s.port q.val).linkUp = false → s.pageOn (pgPort q.val) = true →
      ∃ t, exec (.portLinkUp q) s = .next t ∧ (t.port q.val).linkUp = true ∧ t.has (pgPort q.val) 9 = true)
    ∧ ((s.port q.val).opened = false ∨ (s.port q.val).linkUp = true ∨ s.pageOn (pgPort q.val) = false →
      exec (.portLinkUp q) s = .next s.begin)
    ∧ ((s.port q.val).linkUp = true → ∃ t, exec (.portLinkDown q) s = .next t ∧ (t.port q.val).linkUp = false
        ∧ t.has (pgPort q.val) 8 = true)
    ∧ ((s.port q.val).linkUp = false → exec (.portLinkDown q) s = .next s.begin)
    ∧ (∀ v, (s.port q.val).saltTx = some v → (s.port q.val).opened = true → (s.port q.val).linkUp = true →
        let an := ((s.port q.val).salts + 3) % 4
        ∃ t, exec (.saltAnnounce q) s = .next t ∧ (t.port q.val).announced = true
          ∧ t.out = [.saltFrame q.val an s.moduleId v (saltBytes q.val an s.moduleId v)])
    ∧ ((s.port q.val).saltTx = none ∨ (s.port q.val).opened = false ∨ (s.port q.val).linkUp = false →
      exec (.saltAnnounce q) s = .next s.begin))
  ∧ (∀ (f : SaltFrame) (s : State),
      let k : RxKey := { an := f.an.val, salt := f.salt % 2 ^ 128, src := f.src, last := max s.now f.inst }
      let old := (s.port f.port.val).keys.find? fun k => k.an = f.an.val
      ((s.port f.port.val).opened = false ∨ (s.port f.port.val).linkUp = false → exec (.salt f) s = .next (s.begin.at f.inst))
      ∧ ((s.port f.port.val).opened = true → (s.port f.port.val).linkUp = true →
        (f.port.val = 8 → s.isTwin f.src = false →
          exec (.salt f) s = .next ((s.begin.at f.inst).count (pgPort f.port.val) 0x90 1))
        ∧ (f.port.val ≠ 8 ∨ s.isTwin f.src = true →
          (old = none → ∃ t, exec (.salt f) s = .next t ∧ (t.port f.port.val).keys = (s.port f.port.val).keys ++ [k])
          ∧ ∀ x, old = some x →
            (x.salt = k.salt ∨ x.active = true ∧ max s.now f.inst < x.last + s.silenceT f.port.val →
              exec (.salt f) s = .next (s.begin.at f.inst))
            ∧ (x.salt ≠ k.salt → x.active = false ∨ x.last + s.silenceT f.port.val ≤ max s.now f.inst →
              ∃ t, exec (.salt f) s = .next t ∧ (t.port f.port.val).keys
                = (s.port f.port.val).keys.map fun x => if x.an = f.an.val then k else x))))
  ∧ (∀ (q : Fin 9) (s : State),
      (s.rdn (pgPort q.val) 0x68 < (s.port q.val).macFails.length →
        ∃ t, exec (.macStorm q) s = .next t ∧ (t.port q.val).macFails = [] ∧ t.has (pgPort q.val) 11 = true)
      ∧ ((s.port q.val).macFails.length ≤ s.rdn (pgPort q.val) 0x68 → exec (.macStorm q) s = .next s.begin))
  ∧ ∀ (q : Fin 9) (r : DropReason) (s : State),
      ((s.port q.val).opened = true → (s.port q.val).linkUp = true →
        (r ≠ .badFcs → r ≠ .malformed → exec (.droppedFrame q r) s = .next (s.begin.count (pgPort q.val) 0x90 1))
        ∧ (r = .badFcs → exec (.droppedFrame q r) s = .next (s.begin.count (pgPort q.val) 0xB0 1))
        ∧ (r = .malformed → ∃ t, exec (.droppedFrame q r) s = .next t ∧ t.has (pgPort q.val) 25 = true
            ∧ AfterEvents (s.count (pgPort q.val) 0x98 1) t))
      ∧ ((s.port q.val).opened = false ∨ (s.port q.val).linkUp = false → exec (.droppedFrame q r) s = .next s.begin))
  ∧ (∀ (g : RxFrame → Instr) (ty : Nat) (r : RxFrame) (s : State),
    (g, ty) ∈ [(Instr.data, tyData), (Instr.ack, tyAck), (Instr.openFrame, tyOpen), (Instr.openAck, tyOpenAck),
      (Instr.close, tyClose), (Instr.closeAck, tyCloseAck), (Instr.reset, tyReset), (Instr.probe, tyProbe)] →
    let q := r.port.val
    let key := (s.port q).keys.find? fun k => k.an = r.an.val
    ((s.port q).opened = false ∨ (s.port q).linkUp = false → exec (g r) s = .next (s.begin.at r.inst))
    ∧ ((s.port q).opened = true → (s.port q).linkUp = true → (s.port q).dropNext = 0 ∨ r.f.typ ≠ tyData →
      (key = none ∨ r.icvOk = false → ∃ t, exec (g r) s = .next t ∧ t.has (pgPort q) 10 = true ∧ t.links.convs = s.links.convs
        ∧ t.rd (pgPort q) 0x88 = satAdd (s.rd (pgPort q) 0x88) 1)
      ∧ (∀ k, key = some k → r.icvOk = true → k.accepts r.pn = false →
        exec (g r) s = .next ((s.begin.at r.inst).count (pgPort q) 0x8C 1)))
    ∧ (s.authentic r = true → r.f.formed ty = false → ∃ t, exec (g r) s = .next t ∧ t.has (pgPort q) 25 = true
        ∧ t.rd (pgPort q) 0x98 = satAdd (s.rd (pgPort q) 0x98) 1 ∧ t.links.convs = s.links.convs))

/-- R284, R289, R291: what the initiator of a conversation does with a well-formed authentic frame from its responder, in each of
its states, and what is done where the conversation is closed. -/
def Obligations.InitiatorFrames : Prop :=
  ∀ (r : RxFrame) (s : State), s.authentic r = true → s.convsOk = true →
    let q := r.port.val
    let stale := fun (t : State) => t.has (pgPort q) 12 = true ∧ t.links.convs = s.links.convs
      ∧ t.rd (pgPort q) 0x80 = satAdd (s.rd (pgPort q) 0x80) 1
    let broken := fun (t : State) => t.has (pgPort q) 25 = true ∧ t.rd (pgPort q) 0x98 = satAdd (s.rd (pgPort q) 0x98) 1
    (∀ c, s.initiatorOf r = some c →
      (r.f.formed tyOpenAck = true →
        (c.matches r.f = false → ∃ t, exec (.openAck r) s = .next t ∧ stale t)
        ∧ (c.matches r.f = true →
          (c.st = .opening → ∃ t c', exec (.openAck r) s = .next t ∧ t.conv c.id = some c'
            ∧ (c'.st = .opn ∨ c.closeReq = true ∧ c'.st = .closing) ∧ c'.peerEpoch = r.f.epoch ∧ c'.credit = r.f.credit)
          ∧ (c.st = .opn ∨ c.st = .closing ∨ c.st = .silent → ∃ t, exec (.openAck r) s = .next t
            ∧ t.rd (pgPort q) 0x7C = satAdd (s.rd (pgPort q) 0x7C) 1 ∧ t.conv c.id = some { c with silences := 0 })))
      ∧ (r.f.formed tyAck = true →
        (c.matches r.f = false → ∃ t, exec (.ack r) s = .next t ∧ stale t)
        ∧ (c.matches r.f = true →
          (ackBeyond c r.f = false → c.st = .opn ∨ c.st = .silent →
            ∃ t c', exec (.ack r) s = .next t ∧ t.conv c.id = some c' ∧ c'.credit = r.f.credit
              ∧ (c'.st = .opn ∨ c.closeReq = true ∧ c'.st = .closing)
              ∧ (∀ x ∈ c'.flight, 0 ≤ serial x.f.seq r.f.ack ∨ 0 ≤ serial x.f.seq c.seq)
              ∧ (c.st = .silent → t.has (pgPort q) 15 = true))
          ∧ (ackBeyond c r.f = true → c.st = .opn ∨ c.st = .silent → ∃ t, exec (.ack r) s = .next t ∧ broken t
              ∧ t.conv c.id = some { c with silences := 0, st := .opn } ∧ (c.st = .silent → t.has (pgPort q) 15 = true))
          ∧ (c.st = .opening ∨ c.st = .closing → ∃ t, exec (.ack r) s = .next t
              ∧ t.conv c.id = some { c with silences := 0 })))
      ∧ (r.f.formed tyCloseAck = true →
        (c.matches r.f = false → ∃ t, exec (.closeAck r) s = .next t ∧ stale t)
        ∧ (c.matches r.f = true →
          (c.st = .closing → ∃ t, exec (.closeAck r) s = .next t ∧ t.conv c.id = none)
          ∧ (c.st ≠ .closing → ∃ t, exec (.closeAck r) s = .next t ∧ t.conv c.id = some { c with silences := 0 })))
      ∧ (r.f.formed tyReset = true →
        (c.matchesReset r.f = false → ∃ t, exec (.reset r) s = .next t ∧ stale t)
        ∧ (c.matchesReset r.f = true →
          ∃ t, exec (.reset r) s = .next t ∧ t.rd (pgPort q) 0x94 = satAdd (s.rd (pgPort q) 0x94) 1
            ∧ (c.st = .opening → (t.conv c.id).map (fun x => x.st) = some .silent ∧ t.has (pgPort q) 16 = true)
            ∧ (c.st = .opn → t.has (pgPort q) 13 = true
                ∧ (s.sec.rngOk = true → ∃ c', t.conv c.id = some c'
                    ∧ c'.st = .opening ∧ c'.epoch ≠ 0 ∧ c'.epoch ≠ c.epoch ∧ c'.outq = c.outq ∧ c'.flight = [])
                ∧ (s.sec.rngOk = false → c.id ∈ t.links.waitEpoch ∧ t.conv c.id = some { c with silences := 0 }))
            ∧ (c.st = .closing → t.conv c.id = none)
            ∧ (c.st = .silent → t.conv c.id = some { c with silences := 0 }))))
    ∧ (s.initiatorOf r = none →
      (s.responderOf r = none →
        (r.f.formed tyOpenAck = true → ∃ t, exec (.openAck r) s = .next t ∧ t.links.convs = s.links.convs
          ∧ (s.portSends q = true → t.sentReset q 1 = true))
        ∧ (r.f.formed tyAck = true → ∃ t, exec (.ack r) s = .next t ∧ t.links.convs = s.links.convs
          ∧ (s.portSends q = true → t.sentReset q 1 = true))
        ∧ (r.f.formed tyCloseAck = true → ∃ t, exec (.closeAck r) s = .next t ∧ t.links.convs = s.links.convs
          ∧ (s.portSends q = true → t.sentReset q 1 = true))
        ∧ (r.f.formed tyReset = true → ∃ t, exec (.reset r) s = .next t ∧ t.links.convs = s.links.convs))
      ∧ (s.responderOf r ≠ none →
        (r.f.formed tyOpenAck = true → ∃ t, exec (.openAck r) s = .next t ∧ broken t)
        ∧ (r.f.formed tyAck = true → ∃ t, exec (.ack r) s = .next t ∧ broken t)
        ∧ (r.f.formed tyCloseAck = true → ∃ t, exec (.closeAck r) s = .next t ∧ broken t)
        ∧ (r.f.formed tyReset = true → ∃ t, exec (.reset r) s = .next t ∧ broken t)))

/-- R283–R286, R292: what a responder does with a well-formed authentic frame, in each of its states, and what a port does
where no conversation is there.  A DATA frame in its place is received with those held that follow it; DATA and PROBE end a
silence. -/
def Obligations.ResponderFrames : Prop :=
  ∀ (r : RxFrame) (s : State), s.authentic r = true → s.convsOk = true →
    let q := r.port.val
    let stale := fun (t : State) => t.has (pgPort q) 12 = true ∧ t.links.convs = s.links.convs
      ∧ t.rd (pgPort q) 0x80 = satAdd (s.rd (pgPort q) 0x80) 1
    let broken := fun (t : State) => t.has (pgPort q) 25 = true ∧ t.rd (pgPort q) 0x98 = satAdd (s.rd (pgPort q) 0x98) 1
    (r.f.formed tyOpen = true →
      (s.responderOf r = none → s.openReason q r.f = none →
        ((s.portConvs q).length < 256 → s.sec.rngOk = true →
          ∃ t c, exec (.openFrame r) s = .next t ∧ t.conv s.links.nextConv = some c ∧ c.st = .opn ∧ c.initiator = false
            ∧ c.epoch ≠ 0 ∧ c.peerEpoch = r.f.epoch ∧ c.kind = r.f.kind ∧ c.conv = r.f.conv ∧ c.peer = r.f.src
            ∧ c.part = r.f.part ∧ c.seq = 0 ∧ (s.portSends q = true → t.sent q tyOpenAck = true))
        ∧ ((s.portConvs q).length < 256 → s.sec.rngOk = false → ∃ t, exec (.openFrame r) s = .next t
          ∧ t.links.convs = s.links.convs)
        ∧ (256 ≤ (s.portConvs q).length → ∃ t, exec (.openFrame r) s = .next t ∧ t.links.convs = s.links.convs
          ∧ (s.portSends q = true → t.sentReset q 4 = true)))
      ∧ (∀ k, s.responderOf r = none → s.openReason q r.f = some k → ∃ t, exec (.openFrame r) s = .next t
          ∧ t.links.convs = s.links.convs ∧ (s.portSends q = true → t.sentReset q k = true))
      ∧ ∀ c, s.responderOf r = some c →
        (c.peerEpoch = r.f.epoch → c.st = .opn → ∃ t, exec (.openFrame r) s = .next t
          ∧ t.conv c.id = some { c with silences := 0 } ∧ (s.portSends q = true → t.sent q tyOpenAck = true))
        ∧ (c.peerEpoch = r.f.epoch → c.st = .silent → ∃ t, exec (.openFrame r) s = .next t ∧ t.links.convs = s.links.convs)
        ∧ (c.peerEpoch ≠ r.f.epoch → s.sec.rngOk = true → ∃ t c', exec (.openFrame r) s = .next t
          ∧ t.has (pgPort q) 13 = true ∧ t.conv c.id = some c' ∧ c'.st = .opn ∧ c'.epoch ≠ 0 ∧ c'.epoch ≠ c.epoch
          ∧ c'.peerEpoch = r.f.epoch ∧ c'.seq = 0 ∧ c'.held = [] ∧ (s.portSends q = true → t.sent q tyOpenAck = true))
        ∧ (c.peerEpoch ≠ r.f.epoch → s.sec.rngOk = false → ∃ t, exec (.openFrame r) s = .next t
          ∧ t.links.convs = s.links.convs))
    ∧ (∀ c, s.responderOf r = some c → c.matches r.f = false →
      (r.f.formed tyProbe = true → ∃ t, exec (.probe r) s = .next t ∧ stale t)
      ∧ (r.f.formed tyClose = true → ∃ t, exec (.close r) s = .next t ∧ stale t)
      ∧ (r.f.formed tyData = true → ∃ t, exec (.data r) s = .next t ∧ stale t))
    ∧ (∀ c, s.responderOf r = some c → c.matches r.f = true →
      (r.f.formed tyProbe = true → c.st = .opn ∨ c.st = .silent → ∃ t, exec (.probe r) s = .next t
        ∧ (t.conv c.id).map (fun x => x.st) = some .opn ∧ (s.portSends q = true → t.sent q tyAck = true)
        ∧ (c.st = .silent → t.has (pgPort q) 15 = true))
      ∧ (r.f.formed tyClose = true →
        (c.st = .opn → r.f.seq = c.seq → ∃ t, exec (.close r) s = .next t ∧ t.conv c.id = none
          ∧ (s.portSends q = true → t.sent q tyCloseAck = true))
        ∧ (c.st = .opn → r.f.seq ≠ c.seq → ∃ t, exec (.close r) s = .next t
          ∧ (t.conv c.id).map (fun x => x.st) = some .opn ∧ (s.portSends q = true → t.sent q tyAck = true))
        ∧ (c.st = .silent → ∃ t, exec (.close r) s = .next t ∧ t.conv c.id = some { c with silences := 0 }))
      ∧ (r.f.formed tyData = true → c.st = .opn ∨ c.st = .silent →
        (serial r.f.seq c.seq < 0 ∨ (c.held.any fun x => x.seq = r.f.seq) = true →
          ∃ t, exec (.data r) s = .next t ∧ (s.portSends q = true → t.sent q tyAck = true)
          ∧ t.rd (pgPort q) 0x7C = satAdd (s.rd (pgPort q) 0x7C) 1 ∧ (t.conv c.id).map (fun x => x.seq) = some c.seq
          ∧ (c.st = .silent → t.has (pgPort q) 15 = true))
        ∧ ((s.creditOf q : Int) ≤ serial r.f.seq c.seq → (c.held.any fun x => x.seq = r.f.seq) = false →
          ∃ t, exec (.data r) s = .next t ∧ (s.portSends q = true → t.sent q tyAck = true)
          ∧ t.rd (pgPort q) 0x84 = satAdd (s.rd (pgPort q) 0x84) 1 ∧ (t.conv c.id).map (fun x => x.seq) = some c.seq
          ∧ (c.st = .silent → t.has (pgPort q) 15 = true))
        ∧ (r.f.seq = c.seq → (c.held.any fun x => x.seq = r.f.seq) = false →
          ∃ t n, exec (.data r) s = .next t ∧ 1 ≤ n ∧ n ≤ 65 ∧ (t.conv c.id).map (fun x => x.seq) = some ((c.seq + n) % 2 ^ 32)
          ∧ (c.st = .silent → t.has (pgPort q) 15 = true))
        ∧ (0 < serial r.f.seq c.seq → serial r.f.seq c.seq < s.creditOf q →
          (c.held.any fun x => x.seq = r.f.seq || x.seq = c.seq) = false →
          ∃ t c', exec (.data r) s = .next t ∧ t.conv c.id = some c' ∧ c'.seq = c.seq ∧ c'.held = c.held ++ [r.f]
            ∧ (s.portSends q = true → t.sent q tyAck = true) ∧ (c.st = .silent → t.has (pgPort q) 15 = true))))
    ∧ (s.responderOf r = none → s.initiatorOf r = none ∨ s.openReason q r.f = none →
      (r.f.formed tyData = true → ∃ t, exec (.data r) s = .next t ∧ t.links.convs = s.links.convs
        ∧ (s.portSends q = true → t.sentReset q 1 = true))
      ∧ (r.f.formed tyProbe = true → ∃ t, exec (.probe r) s = .next t ∧ t.links.convs = s.links.convs
        ∧ (s.portSends q = true → t.sentReset q 1 = true))
      ∧ (r.f.formed tyClose = true → ∃ t, exec (.close r) s = .next t ∧ t.links.convs = s.links.convs
        ∧ (s.portSends q = true → t.sent q tyCloseAck = true)))
    ∧ (s.responderOf r = none → s.initiatorOf r ≠ none → s.openReason q r.f ≠ none →
      (r.f.formed tyData = true → ∃ t, exec (.data r) s = .next t ∧ broken t)
      ∧ (r.f.formed tyProbe = true → ∃ t, exec (.probe r) s = .next t ∧ broken t)
      ∧ (r.f.formed tyClose = true → ∃ t, exec (.close r) s = .next t ∧ broken t))

/-- R289–R292: what a conversation's timers do; a timer that does not run in the conversation's state does nothing.

R291, R301, R304, R308: a conversation that the module may open starts with a new epoch and an OPEN, and nothing is done
where it may not; a request to close drops a conversation that is not open, closes an idle open one, and otherwise lets the
open one send what it holds first. -/
def Obligations.ConversationTimers : Prop :=
  ((∀ (i : Nat) (c : Conv) (s : State), s.conv i = some c →
    let q := c.port
    (c.initiator = true →
      (c.st = .opening ∨ c.st = .closing → c.sentOpens < s.openLimit q → ∃ t, exec (.rto i) s = .next t
        ∧ t.conv i = some { c with sentOpens := c.sentOpens + 1 }
        ∧ (s.portSends q = true → t.sent q (if c.st = .opening then tyOpen else tyClose) = true))
      ∧ (c.st = .opening → s.openLimit q ≤ c.sentOpens → ∃ t, exec (.rto i) s = .next t
        ∧ (t.conv i).map (fun x => x.st) = some .silent ∧ t.has (pgPort q) 14 = true)
      ∧ (c.st = .closing → s.openLimit q ≤ c.sentOpens → ∃ t, exec (.rto i) s = .next t ∧ t.conv i = none)
      ∧ (c.st = .opn → (∃ x ∈ c.flight, x.sacked = false ∧ s.rexmitLimit q ≤ x.resent) → ∃ t, exec (.rto i) s = .next t
        ∧ (t.conv i).map (fun x => x.st) = some .silent ∧ t.has (pgPort q) 14 = true)
      ∧ (c.st = .opn → (∀ x ∈ c.flight, x.sacked = false → x.resent < s.rexmitLimit q) →
        ∃ t, exec (.rto i) s = .next t ∧ (t.conv i).map (fun x => x.st) = some .opn
          ∧ ∀ x ∈ c.flight, x.sacked = false → s.portSends q = true →
            ∃ w, Output.frame q { x.f with flags := x.f.flags ||| 4 } w ∈ t.out)
      ∧ (c.st = .silent → exec (.rto i) s = .next s.begin)
      ∧ (c.st = .opn → ∃ t, exec (.keepalive i) s = .next t ∧ t.links.convs = s.links.convs
        ∧ (s.portSends q = true → t.sent q tyProbe = true))
      ∧ (c.st ≠ .opn → exec (.keepalive i) s = .next s.begin)
      ∧ (c.st = .silent → s.sec.rngOk = true → ∃ t c', exec (.openRetry i) s = .next t ∧ t.conv i = some c'
        ∧ c'.st = .opening ∧ c'.epoch ≠ 0 ∧ c'.epoch ≠ c.epoch ∧ c'.outq = c.outq ∧ c'.flight = [] ∧ c'.peerEpoch = 0
        ∧ (s.portSends q = true → t.sent q tyOpen = true))
      ∧ (c.st = .silent → s.sec.rngOk = false → ∃ t, exec (.openRetry i) s = .next t ∧ t.conv i = some c
        ∧ i ∈ t.links.waitEpoch)
      ∧ (c.st ≠ .silent → exec (.openRetry i) s = .next s.begin)
      ∧ exec (.ackDelay i) s = .next s.begin ∧ exec (.forget i) s = .next s.begin)
    ∧ (c.initiator = false →
      (c.st = .opn → 0 < c.unacked → ∃ t, exec (.ackDelay i) s = .next t ∧ t.conv i = some { c with unacked := 0 }
        ∧ (s.portSends q = true → t.sent q tyAck = true))
      ∧ (c.st ≠ .opn ∨ c.unacked = 0 → exec (.ackDelay i) s = .next s.begin)
      ∧ (c.st = .silent → ∃ t, exec (.forget i) s = .next t ∧ t.conv i = none)
      ∧ (c.st ≠ .silent → exec (.forget i) s = .next s.begin)
      ∧ exec (.rto i) s = .next s.begin ∧ exec (.keepalive i) s = .next s.begin ∧ exec (.openRetry i) s = .next s.begin)
    ∧ (c.st = .opn →
      (c.silences + 1 < s.silenceLimit q → ∃ t, exec (.silence i) s = .next t
        ∧ t.conv i = some { c with silences := c.silences + 1 }
        ∧ (c.initiator = true → s.portSends q = true → t.sent q tyProbe = true))
      ∧ (s.silenceLimit q ≤ c.silences + 1 → ∃ t, exec (.silence i) s = .next t
        ∧ (t.conv i).map (fun x => x.st) = some .silent ∧ t.has (pgPort q) 14 = true))
    ∧ (c.st ≠ .opn → exec (.silence i) s = .next s.begin))
  ∧ ∀ (i : Nat) (s : State), s.conv i = none → ∀ g ∈ [Instr.rto, Instr.ackDelay, Instr.keepalive, Instr.silence,
      Instr.openRetry, Instr.forget], exec (g i) s = .next s.begin)
  ∧ ((∀ (q : Fin 9) (k conv peer : Nat) (p : Fin 16) (s : State),
    let may := s.portCtl q.val 0 = true ∧ s.mayOpen q.val k conv peer p.val = true ∧ (s.portConvs q.val).length < 256
      ∧ s.findConv q.val k conv peer true = none ∧ s.sec.rngOk = true
    (s.convsOk = true → may → ∃ t c, exec (.conversationOpenRequest q k conv peer p) s = .next t
      ∧ t.conv s.links.nextConv = some c ∧ c.st = .opening ∧ c.epoch ≠ 0 ∧ c.port = q.val ∧ c.kind = k ∧ c.conv = conv
      ∧ c.peer = peer ∧ c.initiator = true ∧ (s.portSends q.val = true → t.sent q.val tyOpen = true))
    ∧ (¬ may → exec (.conversationOpenRequest q k conv peer p) s = .next s.begin))
  ∧ ∀ (q : Fin 9) (k conv peer : Nat) (s : State),
    (s.findConv q.val k conv peer true = none → exec (.conversationCloseRequest q k conv peer) s = .next s.begin)
    ∧ ∀ c, s.convsOk = true → s.findConv q.val k conv peer true = some c →
      (c.st = .opening ∨ c.st = .silent → ∃ t, exec (.conversationCloseRequest q k conv peer) s = .next t ∧ t.conv c.id = none)
      ∧ (c.st = .opn → c.flight = [] → c.outq = [] → ∃ t, exec (.conversationCloseRequest q k conv peer) s = .next t
        ∧ (t.conv c.id).map (fun x => x.st) = some .closing ∧ (s.portSends q.val = true → t.sent q.val tyClose = true))
      ∧ (c.st = .opn → c.flight ≠ [] ∨ c.outq ≠ [] → exec (.conversationCloseRequest q k conv peer) s =
        .next (s.begin.modConv c.id fun c => { c with closeReq := true }))
      ∧ (c.st = .closing → exec (.conversationCloseRequest q k conv peer) s = .next s.begin))

/-! ### Take input, the twin, rehearsals and the Dailies -/

/-- R297: a channel message of a tick that is not complete before slate T + 1 is late, once, and is counted; TAKE_WAIT slates
later a module that is no double fills it: it is complete, counted and latched.  R302: an entry of a request with CONV_ID 0xFFFF
is a notice, which waits to be taken in; an entry of a module that takes no channel is answered NOT_HELD on the own TAKE
conversation of that channel.  A request is answered once. -/
def Obligations.TakeInput : Prop :=
  (∀ (ch tick : Nat) (s : State), s.takeChanOf ch tick = none →
    exec (.takeLate ch tick) s = .next s.begin ∧ exec (.takeFilled ch tick) s = .next s.begin)
  ∧ (∀ (ch tick : Nat) (r : Reel) (k : TakeTable) (c : TakeChan) (s : State), s.takeChanOf ch tick = some (r, k, c) →
    let m := s.takeMsg ch tick
    let q := s.takePort c m
    (s.clap.num ≠ tick + 1 ∨ (m.done = true ∧ m.doneAt < s.clap.last) ∨ m.late = true →
      exec (.takeLate ch tick) s = .next s.begin)
    ∧ (s.clap.num ≠ tick + 1 + s.takeWait q ∨ m.done = true ∨ s.twin.role = .double →
      exec (.takeFilled ch tick) s = .next s.begin)
    ∧ (q ≤ 8 →
      (s.clap.num = tick + 1 → m.done = false ∨ s.clap.last ≤ m.doneAt → m.late = false →
        ∃ t, exec (.takeLate ch tick) s = .next t
          ∧ t.takeMsg ch tick = { m with late := true, port := q } ∧ t.has (pgPort q) 19 = true
          ∧ t.rd (pgPort q) 0xA0 = satAdd (s.rd (pgPort q) 0xA0) 1)
      ∧ (s.clap.num = tick + 1 + s.takeWait q → m.done = false → s.twin.role ≠ .double →
        ∃ t, exec (.takeFilled ch tick) s = .next t
          ∧ (t.takeMsg ch tick).done = true ∧ (t.takeMsg ch tick).filled = true ∧ t.has (pgPort q) 20 = true
          ∧ t.rd (pgPort q) 0xA4 = satAdd (s.rd (pgPort q) 0xA4) 1)))
  ∧ ∀ (q : Fin 9) (s : State),
    let ours := fun (m : InBox) => decide (m.kind = 5) && decide (m.port = q.val)
    (s.links.inbox.find? ours = none → exec (.rushes q) s = .next s.begin)
    ∧ ∀ m, s.links.inbox.find? ours = some m →
      ∃ t, exec (.rushes q) s = .next t ∧ t.links.inbox = dropFirst ours s.links.inbox
        ∧ (m.data.length = 24 →
          let tick := beAt m.data 0 8
          let off := beAt m.data 12 4
          let len := beAt m.data 16 4
          (beAt m.data 8 2 = 0xFFFF → off = 1 ∨ off = 2 → t.twin.notices = s.twin.notices ++ [(off, tick, len)])
          ∧ (s.takes = none → s.convsOk = true → ∀ c, s.findConv q.val 1 (beAt m.data 8 2) m.peer true = some c →
            c.closeReq = false → c.st = .opening ∨ c.st = .silent →
            (t.conv c.id).map (fun x => x.outq) = some (c.outq ++ [{ notHeld tick off len with uid := c.nextUid }])))

/-- R312, R314, R315, R398: the line's edges start and end a claim's holdoff; at its end the claim takes the line with the
next take epoch, unless its conditions fail; a line that is driven and stays high is a fault; a grave diagnosis is latched
once, and an armed principal yields.

R318: a command whose condition fails is dropped with CLAIM_REFUSED or WRITE_REFUSED; TAKE and CANCEL_TAKE act at once,
and the others wait for the slate; without slates they act at once (R249). -/
def Obligations.ClaimsAndCommands : Prop :=
  ((∀ (inst : Nat) (s : State),
    (s.twin.sense = false → exec (.takeReleaseSensed inst) s = .next (s.begin.at inst))
    ∧ (s.twin.sense = true → ∃ t, exec (.takeReleaseSensed inst) s = .next t
      ∧ t.twin.sense = false ∧ t.twin.highAt = inst ∧ (s.twin.role = .double → t.has pgTwin 10 = true)
      ∧ (s.twin.drive = true → t.twin.claim = s.twin.claim)
      ∧ (s.twin.drive = false → s.twin.claimPending = true → t.twin.claim = some { kind := 2, since := inst })
      ∧ (s.twin.drive = false → s.twin.claimPending = false →
        let may : Prop := s.twin.role = .double ∧ s.allowClaim = true ∧ s.twin.step = .inStep ∧ s.twin.claimBlock = false
        (may → t.twin.claim = some { kind := 1, since := inst }) ∧ (¬ may → t.twin.claim = s.twin.claim))))
  ∧ (∀ s : State, (s.twin.sense = true → exec .takeSenseLow s = .next s.begin)
      ∧ (s.twin.sense = false → ∃ t, exec .takeSenseLow s = .next t ∧ t.twin.sense = true ∧ t.twin.claim = none
        ∧ t.twin.fault = false ∧ t.twin.role = s.twin.role ∧ t.reg = s.reg))
  ∧ (∀ (inst : Nat) (s : State), s.twin.claim = none → exec (.claimHoldoffExpiry inst) s = .next (s.begin.at inst))
  ∧ (∀ (inst : Nat) (c : Claim) (s : State), s.twin.claim = some c →
      (inst < c.since + s.holdoff → exec (.claimHoldoffExpiry inst) s = .next (s.begin.at inst))
      ∧ (c.since + s.holdoff ≤ inst →
        (s.claimOk c.kind = true → ∃ t, exec (.claimHoldoffExpiry inst) s = .next t ∧ t.twin.role = .principal
          ∧ t.twin.drive = true ∧ t.twin.takeEpoch = min (s.twin.takeEpoch + 1) (2 ^ 32 - 1) ∧ t.twin.claim = none
          ∧ t.has pgTwin 8 = true ∧ t.rd pgTwin 0x7C = satAdd (s.rd pgTwin 0x7C) 1
          ∧ (c.kind = 2 → t.twin.claimBlock = false) ∧ (c.kind ≠ 3 → t.twin.gap = s.classALoaded))
        ∧ (s.claimOk c.kind = false → ∃ t, exec (.claimHoldoffExpiry inst) s = .next t ∧ t.twin.claim = none
          ∧ t.twin.role = s.twin.role ∧ t.twin.takeEpoch = s.twin.takeEpoch ∧ t.reg = s.reg)))
  ∧ (∀ s : State, (s.twin.drive = true → s.twin.sense = false → s.twin.fault = false →
      ∃ t, exec .takeFault s = .next t ∧ t.has pgTwin 11 = true
        ∧ AfterEvents { s with twin := { s.twin with fault := true } } t)
      ∧ (s.twin.drive = false ∨ s.twin.sense = true ∨ s.twin.fault = true → exec .takeFault s = .next s.begin))
  ∧ ∀ (k : GraveKind) (s : State),
      let may : Prop := (k ≠ .stateBreak ∧ k ≠ .lateRun) ∨ s.twin.role = .principal ∨ s.twin.role = .none
      (¬ may → exec (.grave k) s = .next s.begin)
      ∧ (may → s.twin.grave = true → ∃ t, exec (.grave k) s = .next t ∧ t.twin = s.twin ∧ t.units = s.units
          ∧ t.sched = s.sched ∧ t.stores = s.stores)
      ∧ (may → s.twin.grave = false →
        ∃ t, exec (.grave k) s = .next t ∧ t.twin.grave = true ∧ t.twin.graveCode = graveNo k ∧ t.has pgTwin 12 = true
          ∧ (s.twin.role = .principal → s.yieldOnGrave = true → t.twin.role = .yielded ∧ t.twin.drive = false
              ∧ t.twin.claim = none ∧ t.has pgTwin 13 = true)
          ∧ (s.twin.role ≠ .principal ∨ s.yieldOnGrave = false → t.twin.role = s.twin.role ∧ t.twin.drive = s.twin.drive)))
  ∧ ((∀ (c : Instr) (b : Nat) (s : State), (c, b) ∈ twinRows → s.writable pgTwin 0x44 (word (2 ^ b)) = true →
    s.cmdOk b true = false →
    ∃ t, exec c s = .next t ∧ AfterEvents s t ∧ t.has pgTwin (if b = 0 then 24 else evRefused) = true)
  ∧ (∀ s : State, s.writable pgTwin 0x44 1 = true → s.cmdOk 0 true = true →
      (s.twin.sense = true → exec .take s = .next { s.begin with twin := { s.twin with claimPending := true } })
      ∧ (s.twin.sense = false → (∀ c, s.twin.claim = some c → c.kind ≠ 2) → exec .take s = .next { s.begin with twin :=
          { s.twin with claim := some { kind := 2, since := s.now } } })
      ∧ (∀ c, s.twin.sense = false → s.twin.claim = some c → c.kind = 2 → exec .take s = .next s.begin))
  ∧ (∀ s : State, s.writable pgTwin 0x44 64 = true → s.twin.claimPending = true →
      ∃ t, exec .cancelTake s = .next t ∧ t.twin.claimPending = false ∧ t.reg = s.reg
        ∧ t.twin.claim = s.twin.claim.filter fun c => !(c.kind = 2))
  ∧ (∀ s : State, s.slatesOn = true →
      (s.writable pgTwin 0x44 2 = true → s.cmdOk 1 true = true →
        exec .stand s = .next { s.begin with twin := { s.twin with standReq := true } })
      ∧ (s.writable pgTwin 0x44 4 = true → s.cmdOk 2 true = true →
        exec .yieldTake s = .next { s.begin with twin := { s.twin with yieldReq := true } })
      ∧ (s.writable pgTwin 0x44 8 = true → s.cmdOk 3 true = true →
        exec .handover s = .next { s.begin with twin := { s.twin with handoverReq := true } })
      ∧ (s.writable pgTwin 0x44 16 = true → s.cmdOk 4 true = true →
        exec .resync s = .next { s.begin with twin := { s.twin with resyncReq := true } })
      ∧ (s.writable pgTwin 0x44 32 = true → s.cmdOk 5 true = true →
        exec .cancelHandover s = .next { s.begin with twin := { s.twin with cancelHoReq := true } }))
  ∧ ∀ s : State, s.slatesOn = false →
      (s.writable pgTwin 0x44 2 = true → s.cmdOk 1 true = true → ∃ t, exec .stand s = .next t ∧ t.twin.role = .double
        ∧ t.twin.step = (if s.classALoaded then .syncing else .off) ∧ t.twin.grave = false ∧ t.twin.graveCode = 0)
      ∧ (s.writable pgTwin 0x44 4 = true → s.cmdOk 2 true = true → ∃ t, exec .yieldTake s = .next t ∧ t.twin.role = .double
        ∧ t.twin.step = .syncing ∧ t.twin.drive = false ∧ (s.twin.drive = true → t.has pgTwin 9 = true))
      ∧ (s.writable pgTwin 0x44 8 = true → s.cmdOk 3 true = true → ∃ t, exec .handover s = .next t
        ∧ t.twin.handover = true ∧ t.twin.handoverAt = s.handoverReg ∧ t.twin.role = .principal)
      ∧ (s.writable pgTwin 0x44 16 = true → s.cmdOk 4 true = true → ∃ t, exec .resync s = .next t
        ∧ t.twin.claimBlock = false ∧ t.twin.step = .syncing ∧ t.twin.resyncPend = true)
      ∧ (s.writable pgTwin 0x44 32 = true → s.cmdOk 5 true = true → ∃ t, exec .cancelHandover s = .next t
        ∧ t.twin.handover = false ∧ t.twin.role = s.twin.role))

/-- R332–R335, R340: at its slate a handover passes the take: the proceeding double claims, and the old principal releases
the line and stands by, or drives it again where it senses it high; at the slate after a claim the contexts of bound partitions
are restored from the twin table; and a cut-over's gap ends two slates after the first full tick, or raises CUTOVER_SLOW at
slate S+16 in a group of more than 8.

R326, R328, R331, R337–R339: a double accepts a continuity message of its reel whose take epoch is no lower than its own,
and a message that names another reel raises REEL_MISMATCH; the principal takes in the double's notices; the double of a bound
partition stores the images that it is sent, where granules are free, and drops one that it is told to release. -/
def Obligations.TwinTraffic : Prop :=
  ((∀ (low : Bool) (s : State),
    let passes : Prop := s.twin.role = .principal ∧ s.twin.handover = true ∧ s.twin.handoverAt = s.clap.num
    (passes →
      (∃ t, exec (.handoverSlate true) s = .next t ∧ t.twin.role = .double ∧ t.twin.drive = false ∧ t.twin.step = .syncing
        ∧ t.twin.handover = false ∧ t.has pgTwin 21 = true)
      ∧ ∃ t, exec (.handoverSlate false) s = .next t ∧ t.twin.role = .principal ∧ t.twin.drive = true
        ∧ t.twin.handover = false ∧ t.has pgTwin 22 = true)
    ∧ (s.proceeds = true → ∃ t, exec (.handoverSlate low) s = .next t
        ∧ t.twin.role = .principal ∧ t.twin.drive = true ∧ t.twin.takeEpoch = min (s.twin.takeEpoch + 1) (2 ^ 32 - 1)
        ∧ t.has pgTwin 8 = true ∧ t.has pgTwin 21 = true)
    ∧ (¬ passes → s.proceeds = false → exec (.handoverSlate low) s = .next s.begin))
  ∧ (∀ s : State, (s.twin.restoreAt = none ∨ s.twin.role ≠ .principal → exec .contextRestore s = .next s.begin)
      ∧ ∀ n, s.twin.restoreAt = some n → s.twin.role = .principal →
        (s.clap.num < n → exec .contextRestore s = .next s.begin)
        ∧ (n ≤ s.clap.num → ∃ t, exec .contextRestore s = .next t ∧ t.twin.restoreAt = none))
  ∧ (∀ (n i p : Nat) (d : Desc) (s : State), s.twin.restoreAt = some n → s.twin.role = .principal → n ≤ s.clap.num →
      s.twin.table = [(i, some (p, d))] →
      ((s.part p).bound = false ∨ d.state = 0 ∨ d.state = 5 →
        exec .contextRestore s = .next { s.begin with twin := { s.twin with restoreAt := none } })
      ∧ ((s.part p).bound = true → d.state ≠ 0 → d.state ≠ 5 →
        (s.ctxOf p i = true → (s.desc i).state = 0 ∨ (s.desc i).state = 5 →
          ∃ t, exec .contextRestore s = .next t
            ∧ (d.state = 1 → (t.desc i).state = 1 ∧ (t.desc i).reel = d.reel ∧ (t.desc i).cacheAddr = d.cacheAddr)
            ∧ (d.state ≠ 1 → mget (fun _ => none) s.twin.images i = none → (t.desc i).state = 5 ∧ (t.desc i).cause = 4)
            ∧ ∀ (x : TwinImage) (b : Bytes) (u : State), d.state ≠ 1 → mget (fun _ => none) s.twin.images i = some x →
              ({ s.begin with twin := { s.twin with restoreAt := none } } : State).loadPark p ckptUnit (s.granPpa p x.first) 256
                = (.ok b, u) →
              (t.desc i).state = 4 ∧ (t.desc i).parkFirst = x.first ∧ (t.desc i).parkGran = x.gran
                ∧ (d.state = 4 ∧ x.kind = 2 ∨ (t.desc i).pos = (Desc.parse b).pos))
        ∧ (s.ctxOf p i = false ∨ ((s.desc i).state ≠ 0 ∧ (s.desc i).state ≠ 5) →
          ∃ t, exec .contextRestore s = .next t ∧ t.has pgTwin 26 = true ∧ t.desc i = s.desc i)))
  ∧ (∀ s : State, (s.twin.gap = false → exec .cutoverGapEnd s = .next s.begin)
      ∧ (s.twin.gap = true →
        (∀ f, s.twin.gapF = some f →
          (s.clap.num < f + 2 → exec .cutoverGapEnd s = .next s.begin)
          ∧ (f + 2 ≤ s.clap.num → ∃ t, exec .cutoverGapEnd s = .next t ∧ t.twin.gap = false
            ∧ t.rd pgTwin 0x80 = word (min (f + 2 - s.twin.gapS.getD 0) 15 + min (f - s.twin.gapS.getD 0) 255 * 256)))
        ∧ (s.twin.gapF = none →
          (s.classALoaded = true → exec .cutoverGapEnd s = .next s.begin)
          ∧ (s.classALoaded = false → ∃ t, exec .cutoverGapEnd s = .next t ∧ t.twin.gap = false))))
  ∧ ∀ s : State,
      let slow : Prop := s.twin.gap = true ∧ s.twin.slow = false ∧ 8 < s.groupSize ∧ ∃ a, s.twin.gapS = some a ∧ a + 16 ≤ s.clap.num
      (slow → ∃ t, exec .cutoverSlow s = .next t ∧ t.has pgTwin 23 = true
        ∧ AfterEvents { s with twin := { s.twin with slow := true } } t)
      ∧ (¬ slow → exec .cutoverSlow s = .next s.begin))
  ∧ ((∀ (inst : Nat) (s : State), (s.links.inbox.find? fun m => m.kind = 3) = none →
    exec (.contMessage inst) s = .next (s.begin.at inst))
  ∧ (∀ (inst : Nat) (m : InBox) (s : State), (s.links.inbox.find? fun m => m.kind = 3) = some m →
    let proper : Prop := s.twin.role = .double ∧ leAt m.data 0 4 = contMagic ∧ leAt m.data 4 2 = 1
    (¬ proper → ∃ t, exec (.contMessage inst) s = .next t ∧ t.twin = s.twin ∧ t.sched = s.sched ∧ t.reg = s.reg)
    ∧ (proper → s.contReel m.data = false → ∃ t, exec (.contMessage inst) s = .next t ∧ t.has pgTwin 18 = true
      ∧ t.twin = s.twin ∧ t.sched = s.sched)
    ∧ (proper → s.contReel m.data = true → leAt m.data 0x10 4 < s.twin.takeEpoch → ∃ t, exec (.contMessage inst) s = .next t
      ∧ t.twin = s.twin ∧ t.sched = s.sched ∧ t.reg = s.reg)
    ∧ (proper → s.contReel m.data = true → s.twin.takeEpoch ≤ leAt m.data 0x10 4 → ∃ t, exec (.contMessage inst) s = .next t
      ∧ t.twin.takeEpoch = leAt m.data 0x10 4 ∧ t.twin.lastPublished = some (leAt m.data 0x20 8)
      ∧ ((leAt m.data 6 2).testBit 0 = true → t.twin.msgs = s.twin.msgs)
      ∧ ((leAt m.data 6 2).testBit 0 = false → s.clap.num < leAt m.data 8 8 + 2 →
          t.twin.msgs = s.twin.msgs ++ [contMsg m.data])
      ∧ ((leAt m.data 6 2).testBit 0 = false → leAt m.data 8 8 + 2 ≤ s.clap.num → t.twin.msgs = s.twin.msgs
          ∧ t.rd pgTwin 0x78 = satAdd (s.rd pgTwin 0x78) 1)))
  ∧ (∀ (k n v : Nat) (s : State),
      let first := fun (a : Nat) => s.twin.notices.find? fun (x : Nat × Nat × Nat) => x.1 = a
      (first 1 = none → exec .verdictNotice s = .next s.begin) ∧ (first 2 = none → exec .bindingNotice s = .next s.begin)
      ∧ (s.twin.role ≠ .principal →
        (first 1 ≠ none → ∃ t, exec .verdictNotice s = .next t ∧ t.reg = s.reg ∧ t.twin.logHeld = s.twin.logHeld)
        ∧ (first 2 ≠ none → ∃ t, exec .bindingNotice s = .next t ∧ t.reg = s.reg ∧ t.twin.bindMap = s.twin.bindMap))
      ∧ (s.twin.role = .principal →
        (first 1 = some (k, n, v) →
          ∃ t, exec .verdictNotice s = .next t ∧ t.has pgTwin 16 = true ∧ t.rd pgTwin 0x8C = satAdd (s.rd pgTwin 0x8C) 1
            ∧ t.twin.logHeld = true ∧ (s.twin.logHeld = false → t.twin.divTick = n ∧ t.rd pgTwin 0xB0 = word v))
        ∧ (first 2 = some (k, n, v) →
          ∃ t, exec .bindingNotice s = .next t ∧ t.twin.bindMap = v % 65536 ∧ t.reg = s.reg)))
  ∧ (∀ (c : Instr) (kind : Nat) (s : State), (c, kind) ∈ [(.checkpoint, 1), (.parkImage, 2), (.checkpointRelease, 3)] →
      let first := s.links.inbox.find? fun m => m.kind = 6 && m.msg / 2 ^ 24 % 16 = kind
      (first = none → exec c s = .next s.begin)
      ∧ ∀ m, first = some m →
        (s.twin.role ≠ .double → ∃ t, exec c s = .next t ∧ t.twin = s.twin ∧ t.stores = s.stores ∧ t.reg = s.reg)
        ∧ (s.twin.role = .double → (s.part m.part).enabled = false ∨ (s.part m.part).bound = false →
          ∃ t, exec c s = .next t ∧ t.twin.images = s.twin.images ∧ t.has pgTwin 25 = true
            ∧ t.rd pgCont 0x128 = satAdd (s.rd pgCont 0x128) 1))
  ∧ (∀ (kind : Nat) (m : InBox) (s : State),
      (s.links.inbox.find? fun m => m.kind = 6 && m.msg / 2 ^ 24 % 16 = kind) = some m → s.twin.role = .double →
      (s.part m.part).enabled = true → (s.part m.part).bound = true →
      let i := m.msg % 2 ^ 20
      let place := fun (b : Bytes) => (s.dropImage m.part i).parkAlloc m.part (ceilDiv b.length parkGran) (twinKey i)
      (kind = 2 → (∀ f u, place m.data = some (f, u) → ∃ t, exec .parkImage s = .next t
            ∧ mget (fun _ => none) t.twin.images i = some
                { part := m.part, first := f, gran := ceilDiv m.data.length parkGran, kind := 2, ver := m.msg / 2 ^ 32 })
          ∧ (place m.data = none → ∃ t, exec .parkImage s = .next t ∧ t.twin.images = s.twin.images ∧ t.has pgTwin 25 = true
            ∧ t.rd pgCont 0x128 = satAdd (s.rd pgCont 0x128) 1))
      ∧ (kind = 1 →
          let old := (mget (fun _ => none) s.twin.images i).map s.imageBytes
          (mergeCkpt old m.data = none → ∃ t, exec .checkpoint s = .next t ∧ t.twin.images = s.twin.images
            ∧ t.has pgTwin 25 = true ∧ t.rd pgCont 0x128 = satAdd (s.rd pgCont 0x128) 1)
          ∧ (∀ b, mergeCkpt old m.data = some b → place b = none → ∃ t, exec .checkpoint s = .next t
            ∧ t.twin.images = s.twin.images ∧ t.has pgTwin 25 = true ∧ t.rd pgCont 0x128 = satAdd (s.rd pgCont 0x128) 1)
          ∧ ∀ b f u, mergeCkpt old m.data = some b → place b = some (f, u) → ∃ t, exec .checkpoint s = .next t
            ∧ mget (fun _ => none) t.twin.images i = some
                { part := m.part, first := f, gran := ceilDiv b.length parkGran, kind := 1, ver := m.msg / 2 ^ 32 })
      ∧ (kind = 3 → ∃ t, exec .checkpointRelease s = .next t ∧ mget (fun _ => none) t.twin.images i = none
          ∧ (∀ x ∈ mget (fun _ => []) t.stores.parkUse m.part, x.2.2 ≠ twinKey i)
          ∧ t.rd pgCont 0x11C = satAdd (s.rd pgCont 0x11C) 1)))

/-- R328: a message accepted after its judgement slate is never installed; a valid shadow's digest is compared with it, and a
difference is a divergence; its descriptors are stored, and it is counted.  A message with a FILL range or FILL_OVER leaves no
shadow valid (R325).  A message without a reel has no judgement. -/
def Obligations.LateMessages : Prop :=
  ∀ (inst : Nat) (m : InBox) (s : State), (s.links.inbox.find? fun m => m.kind = 3) = some m → s.twin.role = .double →
    leAt m.data 0 4 = contMagic → leAt m.data 4 2 = 1 → s.contReel m.data = true → s.twin.takeEpoch ≤ leAt m.data 0x10 4 →
    (leAt m.data 6 2).testBit 0 = false → leAt m.data 8 8 + 2 ≤ s.clap.num →
    ∃ t, exec (.contMessage inst) s = .next t ∧ t.units = s.units ∧ t.stores = s.stores ∧ t.twin.msgs = s.twin.msgs
      ∧ t.rd pgTwin 0x78 = satAdd (s.rd pgTwin 0x78) 1
      ∧ (∀ r, s.tickRun (leAt m.data 8 8) = some r →
          let valid : Prop := r.valid = true ∧ contSection m.data 1 = [] ∧ (leAt m.data 6 2).testBit 1 = false
          (valid → r.digest ≠ (m.data.drop 0x40).take 64 → t.has pgTwin 16 = true ∧ t.twin.claimBlock = true
            ∧ t.rd pgTwin 0x8C = satAdd (s.rd pgTwin 0x8C) 1 ∧ (s.twin.step ≠ .off → t.twin.step = .diverged))
          ∧ (¬ valid ∨ r.digest = (m.data.drop 0x40).take 64 → t.twin.step = s.twin.step ∧ t.twin.claimBlock = s.twin.claimBlock
            ∧ t.rd pgTwin 0x8C = s.rd pgTwin 0x8C))
      ∧ ∀ k, k < (contSection m.data 3).length / 256 →
          let d := Desc.parse (((contSection m.data 3).drop (256 * k)).take 256)
          d.state ≠ 0 → ∃ x, mget (fun _ => none) t.twin.table d.index = some x ∧ d.ver ≤ x.2.ver

/-- R402–R405: an ARM with an entry that breaks R404 is refused, and any other takes effect at the next slate, or at once while
none are issued; a due firing is counted, misses a target that is shut or holds one already, and otherwise arms its injection;
one that is not due does nothing.  R407, R410: a dump copies the records, oldest first, and raises DUMP_DONE, or DUMP_FAIL where
the store refuses it; CLEAR empties the ring; neither is taken while a dump is busy. -/
def Obligations.RehearsalAndDailies : Prop :=
  (∀ (on : Bool) (s : State), s.writable pgReh 0x40 (if on then 1 else 0) = true →
    let bad : Prop := on = true ∧ bit (s.rd pgReh 0x40) 0 = false ∧ ∃ e, e < 16 ∧ 0 < s.entryRepeat e ∧ s.entryOk e = false
    (bad → ∃ t, exec (.arm on) s = .next t ∧ AfterEvents s t ∧ t.has pgReh evRefused = true)
    ∧ (¬ bad → ∃ t, exec (.arm on) s = .next t ∧ bit (t.rd pgReh 0x40) 0 = on
      ∧ (s.slatesOn = true → t.reh = s.reh ∧ t.fo pgReh 0x40 = s.fo pgReh 0x40 ∧ t.reg.due = s.reg.due ++ [rk pgReh 0x40])
      ∧ (s.slatesOn = false → t.reh.armed = on)))
  ∧ (∀ (e : Fin 16) (s : State), (s.firingDue e.val = false → exec (.rehearsalFiring e) s = .next s.begin)
      ∧ (s.firingDue e.val = true →
      let k := s.entryKind e.val
      let pg := s.entryTarget e.val
      ∃ t, exec (.rehearsalFiring e) s = .next t ∧ mget (fun _ => 0) t.reh.fired e.val = mget (fun _ => 0) s.reh.fired e.val + 1
        ∧ ((s.targetHolds k pg = true ∨ s.targetShut pg = true ∨ (k = 6 ∧ s.twin.role ≠ .principal)) →
            t.reh.live = s.reh.live ∧ t.links = s.links ∧ t.twin = s.twin ∧ t.has pgReh 9 = true
            ∧ t.rd pgReh 0x4C = satAdd (s.rd pgReh 0x4C) 1)
        ∧ (s.targetHolds k pg = false → s.targetShut pg = false →
            ((k = 1 ∨ k = 2) → t.reh.live = s.reh.live ++ [{ entry := e.val, kind := k, page := pg }])
            ∧ (k = 3 → (t.port (if pg = pgCont then 8 else pg - 0x18)).dropNext = s.entrySub e.val)
            ∧ (k = 4 → t.reh.clapSkip = true) ∧ (k = 5 → t.reh.slateSkip = true)
            ∧ (k = 6 → s.twin.role = .principal → t.reh.contHold = true) ∧ (k = 7 → t.reh.stall = true)
            ∧ (k = 8 → t.twin.grave = true))))
  ∧ (∀ s : State, s.writable pgDailies 0x5C 1 = true →
      (s.dly.dumpSt ≠ 1 → s.inSpace 0 (s.rd64 pgDailies 0x54) (32 * s.dly.recs.length) = true →
        exec .dump s = .next { s.begin with dly := { s.dly with
          dumpSt := 1, dumping := s.dly.recs.reverse, dumpAddr := s.rd64 pgDailies 0x54 } })
      ∧ (s.dly.dumpSt = 1 ∨ s.inSpace 0 (s.rd64 pgDailies 0x54) (32 * s.dly.recs.length) = false →
        ∃ t, exec .dump s = .next t ∧ AfterEvents s t ∧ t.has pgDailies evRefused = true))
  ∧ (∀ s : State, s.writable pgDailies 0x5C 2 = true →
      (s.dly.dumpSt ≠ 1 → exec .clear s = .next { s.begin with dly := { s.dly with recs := [], head := 0 } })
      ∧ (s.dly.dumpSt = 1 → ∃ t, exec .clear s = .next t ∧ AfterEvents s t ∧ t.has pgDailies evRefused = true))
  ∧ ∀ (ok : Bool) (s : State), (s.dly.dumpSt ≠ 1 → exec (.dumpDone ok) s = .next s.begin)
      ∧ (s.dly.dumpSt = 1 →
      let put := s.begin.store { p := 0 } s.dly.dumpAddr (s.dly.dumping.flatMap dailyBytes)
      (ok = true → put.1 = none → ∃ t, exec (.dumpDone ok) s = .next t ∧ t.dly.dumpSt = 2
        ∧ t.dly.dumpCount = s.dly.dumping.length ∧ t.dly.dumping = [] ∧ t.has pgDailies 9 = true
        ∧ t.stores.main = put.2.stores.main)
      ∧ ((ok = false ∨ put.1 ≠ none) → ∃ t, exec (.dumpDone ok) s = .next t ∧ t.dly.dumpSt = 3
        ∧ t.dly.dumpCount ≤ s.dly.dumping.length ∧ t.dly.dumping = [] ∧ t.has pgDailies 10 = true))

/-! ### What families of commands leave alone -/

/-- What the Clapper's and the time base's commands, those of ports and conversations, and those of the twin leave alone:
the module's work, and every component but the ones that they act on.  A slate frame may key its link with HL, which EXPOSED
tells of (R357); the others of its family change no partition. -/
def Obligations.ProtocolFrames : Prop :=
  ∀ (c : Instr) (s t : State), exec c s = .next t →
    (timingRow c = true → sameWork s t ∧ t.sec = s.sec ∧ t.power = s.power ∧ t.boot = s.boot
      ∧ ((∀ i f, c ≠ .slateFrame i f) → t.parts = s.parts))
    ∧ (linkRow c = true → sameWork s t ∧ t.clap = s.clap ∧ t.ptp = s.ptp ∧ t.sec = s.sec ∧ t.twin = s.twin
        ∧ t.power = s.power ∧ t.boot = s.boot ∧ t.reh = s.reh)
    ∧ (twinRow c = true → sameWork s t ∧ t.clap = s.clap ∧ t.ptp = s.ptp ∧ t.parts = s.parts ∧ t.sec = s.sec
        ∧ t.power = s.power ∧ t.boot = s.boot ∧ t.reh = s.reh)

/-- What power, thermal and PMBus commands, and those of the seal, the mailbox and the die-to-die link, leave alone. -/
def Obligations.SupportFrames : Prop :=
  ∀ (c : Instr) (s t : State), exec c s = .next t →
    (powerRow c = true → sameWork s t ∧ t.clap = s.clap ∧ t.ptp = s.ptp ∧ t.parts = s.parts ∧ t.sec = s.sec
        ∧ t.links = s.links ∧ t.twin = s.twin ∧ t.boot = s.boot ∧ t.reh = s.reh)
    ∧ (sealRow c = true → sameWork s t ∧ t.clap = s.clap ∧ t.ptp = s.ptp ∧ t.twin = s.twin ∧ t.power = s.power
        ∧ t.boot = s.boot ∧ t.reh = s.reh)
end

