-- ==== Sys2Proof/Laws/Maps.lean ====
section
/-! SUPPORT. Sparse maps: what a read gives after a write, and the canonical form that every update keeps. -/
namespace Sys2Proof.Machine

variable {α : Type}

@[simp] theorem mget_nil (d : Nat → α) (k : Nat) : mget d [] k = d k := rfl

theorem mget_mins_same (d : Nat → α) (m : SMap α) (k : Nat) (v : α) : mget d (mins m k v) k = v := by
  induction m with
  | nil => simp [mins, mget]
  | cons e r ih =>
    obtain ⟨k', v'⟩ := e
    simp only [mins]
    split
    · simp [mget]
    · split
      · simp [mget]
      · simp only [mget]
        rw [if_neg (by omega), ih]

theorem mget_mins_ne (d : Nat → α) (m : SMap α) {k j : Nat} (v : α) (h : j ≠ k) : mget d (mins m k v) j = mget d m j := by
  induction m with
  | nil => simp [mins, mget, Ne.symm h]
  | cons e r ih =>
    obtain ⟨k', v'⟩ := e
    simp only [mins]
    split
    · simp [mget, Ne.symm h]
    · split
      · subst_vars; simp [mget, Ne.symm h]
      · simp only [mget, ih]

theorem mget_mdel_ne (d : Nat → α) (m : SMap α) {k j : Nat} (h : j ≠ k) : mget d (mdel m k) j = mget d m j := by
  induction m with
  | nil => rfl
  | cons e r ih =>
    obtain ⟨k', v'⟩ := e
    simp only [mdel]
    split
    · subst_vars; simp [mget, Ne.symm h, ih]
    · simp only [mget, ih]

theorem mget_mdel_same (d : Nat → α) (m : SMap α) (k : Nat) : mget d (mdel m k) k = d k := by
  induction m with
  | nil => rfl
  | cons e r ih =>
    obtain ⟨k', v'⟩ := e
    simp only [mdel]
    split
    · exact ih
    · rename_i hne
      simp only [mget, if_neg hne, ih]

theorem mrising_mono {m : SMap α} {lo lo' : Nat} (h : lo' ≤ lo) (hm : mrising lo m = true) : mrising lo' m = true := by
  cases m with
  | nil => rfl
  | cons e r =>
    simp only [mrising, Bool.and_eq_true, decide_eq_true_eq] at hm ⊢
    exact ⟨by omega, hm.2⟩

theorem mrising_mins {m : SMap α} {lo k : Nat} (v : α) (hm : mrising lo m = true) (hk : lo ≤ k) : mrising lo (mins m k v) = true := by
  induction m generalizing lo with
  | nil => simp [mins, mrising, hk]
  | cons e r ih =>
    obtain ⟨k', v'⟩ := e
    simp only [mrising, Bool.and_eq_true, decide_eq_true_eq] at hm
    simp only [mins]
    split
    · simp only [mrising, Bool.and_eq_true, decide_eq_true_eq]
      exact ⟨hk, by omega, hm.2⟩
    · split
      · subst_vars
        simp only [mrising, Bool.and_eq_true, decide_eq_true_eq]
        exact ⟨hk, hm.2⟩
      · simp only [mrising, Bool.and_eq_true, decide_eq_true_eq]
        exact ⟨hm.1, ih hm.2 (by omega)⟩

theorem mrising_mdel {m : SMap α} {lo : Nat} (k : Nat) (hm : mrising lo m = true) : mrising lo (mdel m k) = true := by
  induction m generalizing lo with
  | nil => rfl
  | cons e r ih =>
    obtain ⟨k', v'⟩ := e
    simp only [mrising, Bool.and_eq_true, decide_eq_true_eq] at hm
    simp only [mdel]
    split
    · exact mrising_mono (by omega) (ih hm.2)
    · simp only [mrising, Bool.and_eq_true, decide_eq_true_eq]
      exact ⟨hm.1, ih hm.2⟩

theorem mrising_filter {m : SMap α} {lo : Nat} (p : Nat × α → Bool) (hm : mrising lo m = true) : mrising lo (m.filter p) = true := by
  induction m generalizing lo with
  | nil => rfl
  | cons e r ih =>
    simp only [mrising, Bool.and_eq_true, decide_eq_true_eq] at hm
    rw [List.filter_cons]
    split
    · simp only [mrising, Bool.and_eq_true, decide_eq_true_eq]
      exact ⟨hm.1, ih hm.2⟩
    · exact ih (mrising_mono (by omega) hm.2)

variable [DecidableEq α]

theorem mnontrivial_mins {d : Nat → α} {m : SMap α} {k : Nat} {v : α} (hv : v ≠ d k) (hm : mnontrivial d m = true) :
    mnontrivial d (mins m k v) = true := by
  induction m with
  | nil => simp [mins, mnontrivial, hv]
  | cons e r ih =>
    obtain ⟨k', v'⟩ := e
    simp only [mnontrivial, List.all_cons, Bool.and_eq_true] at hm ih ⊢
    simp only [mins]
    split
    · simp only [List.all_cons, Bool.and_eq_true]
      exact ⟨by simp [hv], hm⟩
    · split
      · simp only [List.all_cons, Bool.and_eq_true]
        exact ⟨by simp [hv], hm.2⟩
      · simp only [List.all_cons, Bool.and_eq_true]
        exact ⟨hm.1, ih hm.2⟩

theorem mnontrivial_mdel {d : Nat → α} {m : SMap α} (k : Nat) (hm : mnontrivial d m = true) : mnontrivial d (mdel m k) = true := by
  induction m with
  | nil => rfl
  | cons e r ih =>
    obtain ⟨k', v'⟩ := e
    simp only [mnontrivial, List.all_cons, Bool.and_eq_true] at hm ih ⊢
    simp only [mdel]
    split
    · exact ih hm.2
    · simp only [List.all_cons, Bool.and_eq_true]
      exact ⟨hm.1, ih hm.2⟩

theorem mwf_iff {d : Nat → α} {m : SMap α} : mwf d m = true ↔ mrising 0 m = true ∧ mnontrivial d m = true := by
  simp [mwf]

@[simp] theorem mwf_nil (d : Nat → α) : mwf d [] = true := rfl

theorem mwf_mset {d : Nat → α} {m : SMap α} (k : Nat) (v : α) (hm : mwf d m = true) : mwf d (mset d m k v) = true := by
  rw [mwf_iff] at hm ⊢
  unfold mset
  split
  · exact ⟨mrising_mdel k hm.1, mnontrivial_mdel k hm.2⟩
  · rename_i h
    exact ⟨mrising_mins v hm.1 (Nat.zero_le k), mnontrivial_mins h hm.2⟩

theorem mwf_mmod {d : Nat → α} {m : SMap α} (k : Nat) (f : α → α) (hm : mwf d m = true) : mwf d (mmod d m k f) = true :=
  mwf_mset k _ hm

theorem mwf_msetMany {d : Nat → α} (vs : List α) {m : SMap α} (k : Nat) (hm : mwf d m = true) : mwf d (msetMany d m k vs) = true := by
  induction vs generalizing m k with
  | nil => exact hm
  | cons v r ih => exact ih (k + 1) (mwf_mset k v hm)

theorem mwf_filter {d : Nat → α} {m : SMap α} (p : Nat × α → Bool) (hm : mwf d m = true) : mwf d (m.filter p) = true := by
  rw [mwf_iff] at hm ⊢
  refine ⟨mrising_filter p hm.1, ?_⟩
  have h := hm.2
  simp only [mnontrivial, List.all_eq_true] at h ⊢
  intro e he
  exact h e (List.mem_filter.mp he).1

theorem mwf_mdrop {d : Nat → α} {m : SMap α} (p : Nat → Bool) (hm : mwf d m = true) : mwf d (mdrop p m) = true :=
  mwf_filter _ hm

theorem mget_mset_ne (d : Nat → α) (m : SMap α) {k j : Nat} (v : α) (h : j ≠ k) : mget d (mset d m k v) j = mget d m j := by
  unfold mset
  split
  · exact mget_mdel_ne d m h
  · exact mget_mins_ne d m v h

/-- A read after a write to the same key. -/
@[simp] theorem mget_mset_same (d : Nat → α) (m : SMap α) (k : Nat) (v : α) : mget d (mset d m k v) k = v := by
  unfold mset
  split
  · rename_i h
    rw [h, mget_mdel_same]
  · exact mget_mins_same d m k v

theorem mget_mmod_ne (d : Nat → α) (m : SMap α) {k j : Nat} (f : α → α) (h : j ≠ k) : mget d (mmod d m k f) j = mget d m j :=
  mget_mset_ne d m _ h

@[simp] theorem mget_mmod_same (d : Nat → α) (m : SMap α) (k : Nat) (f : α → α) :
    mget d (mmod d m k f) k = f (mget d m k) :=
  mget_mset_same d m k _

/-- Bytes outside a run of writes read as before. -/
theorem mget_msetMany_out (d : Nat → α) (vs : List α) (m : SMap α) {k j : Nat} (h : j < k ∨ k + vs.length ≤ j) :
    mget d (msetMany d m k vs) j = mget d m j := by
  induction vs generalizing m k with
  | nil => rfl
  | cons v r ih =>
    simp only [msetMany, List.length_cons] at h ⊢
    rw [ih _ (by omega), mget_mset_ne d m v (by omega)]

/-- A run of writes reads back. -/
@[simp] theorem mgetMany_msetMany (d : Nat → α) (vs : List α) (m : SMap α) (k : Nat) :
    mgetMany d (msetMany d m k vs) k vs.length = vs := by
  induction vs generalizing m k with
  | nil => rfl
  | cons v r ih =>
    simp only [msetMany, List.length_cons, mgetMany]
    rw [ih _ (k + 1), mget_msetMany_out d r _ (Or.inl (Nat.lt_succ_self k)), mget_mset_same]

end Sys2Proof.Machine
end

