-- ==== Sys2Proof/Laws/State.lean ====
section
/-! SUPPORT. One lemma per field and update of the state: what an update leaves alone. -/
namespace Sys2Proof.Machine

/-! ### State.begin -/

@[simp] theorem State.begin_pending (s : State) : (s.begin).pending = s.pending := rfl
@[simp] theorem State.begin_fresh (s : State) : (s.begin).fresh = s.fresh := rfl
@[simp] theorem State.begin_now (s : State) : (s.begin).now = s.now := rfl
@[simp] theorem State.begin_reg (s : State) : (s.begin).reg = s.reg := rfl
@[simp] theorem State.begin_acts (s : State) : (s.begin).acts = s.acts := rfl
@[simp] theorem State.begin_clap (s : State) : (s.begin).clap = s.clap := rfl
@[simp] theorem State.begin_ptp (s : State) : (s.begin).ptp = s.ptp := rfl
@[simp] theorem State.begin_sched (s : State) : (s.begin).sched = s.sched := rfl
@[simp] theorem State.begin_script (s : State) : (s.begin).script = s.script := rfl
@[simp] theorem State.begin_parts (s : State) : (s.begin).parts = s.parts := rfl
@[simp] theorem State.begin_stores (s : State) : (s.begin).stores = s.stores := rfl
@[simp] theorem State.begin_sec (s : State) : (s.begin).sec = s.sec := rfl
@[simp] theorem State.begin_units (s : State) : (s.begin).units = s.units := rfl
@[simp] theorem State.begin_splicer (s : State) : (s.begin).splicer = s.splicer := rfl
@[simp] theorem State.begin_tele (s : State) : (s.begin).tele = s.tele := rfl
@[simp] theorem State.begin_d2d (s : State) : (s.begin).d2d = s.d2d := rfl
@[simp] theorem State.begin_links (s : State) : (s.begin).links = s.links := rfl
@[simp] theorem State.begin_twin (s : State) : (s.begin).twin = s.twin := rfl
@[simp] theorem State.begin_power (s : State) : (s.begin).power = s.power := rfl
@[simp] theorem State.begin_boot (s : State) : (s.begin).boot = s.boot := rfl
@[simp] theorem State.begin_reh (s : State) : (s.begin).reh = s.reh := rfl
@[simp] theorem State.begin_dly (s : State) : (s.begin).dly = s.dly := rfl
@[simp] theorem State.begin_shot (s : State) : (s.begin).shot = s.shot := rfl

/-! ### State.at -/

@[simp] theorem State.at_pending (s : State) (t : Nat) : (s.at t).pending = s.pending := rfl
@[simp] theorem State.at_out (s : State) (t : Nat) : (s.at t).out = s.out := rfl
@[simp] theorem State.at_fresh (s : State) (t : Nat) : (s.at t).fresh = s.fresh := rfl
@[simp] theorem State.at_reg (s : State) (t : Nat) : (s.at t).reg = s.reg := rfl
@[simp] theorem State.at_acts (s : State) (t : Nat) : (s.at t).acts = s.acts := rfl
@[simp] theorem State.at_clap (s : State) (t : Nat) : (s.at t).clap = s.clap := rfl
@[simp] theorem State.at_ptp (s : State) (t : Nat) : (s.at t).ptp = s.ptp := rfl
@[simp] theorem State.at_sched (s : State) (t : Nat) : (s.at t).sched = s.sched := rfl
@[simp] theorem State.at_script (s : State) (t : Nat) : (s.at t).script = s.script := rfl
@[simp] theorem State.at_parts (s : State) (t : Nat) : (s.at t).parts = s.parts := rfl
@[simp] theorem State.at_stores (s : State) (t : Nat) : (s.at t).stores = s.stores := rfl
@[simp] theorem State.at_sec (s : State) (t : Nat) : (s.at t).sec = s.sec := rfl
@[simp] theorem State.at_units (s : State) (t : Nat) : (s.at t).units = s.units := rfl
@[simp] theorem State.at_splicer (s : State) (t : Nat) : (s.at t).splicer = s.splicer := rfl
@[simp] theorem State.at_tele (s : State) (t : Nat) : (s.at t).tele = s.tele := rfl
@[simp] theorem State.at_d2d (s : State) (t : Nat) : (s.at t).d2d = s.d2d := rfl
@[simp] theorem State.at_links (s : State) (t : Nat) : (s.at t).links = s.links := rfl
@[simp] theorem State.at_twin (s : State) (t : Nat) : (s.at t).twin = s.twin := rfl
@[simp] theorem State.at_power (s : State) (t : Nat) : (s.at t).power = s.power := rfl
@[simp] theorem State.at_boot (s : State) (t : Nat) : (s.at t).boot = s.boot := rfl
@[simp] theorem State.at_reh (s : State) (t : Nat) : (s.at t).reh = s.reh := rfl
@[simp] theorem State.at_dly (s : State) (t : Nat) : (s.at t).dly = s.dly := rfl
@[simp] theorem State.at_shot (s : State) (t : Nat) : (s.at t).shot = s.shot := rfl

/-! ### State.emit -/

@[simp] theorem State.emit_pending (s : State) (o : Output) : (s.emit o).pending = s.pending := rfl
@[simp] theorem State.emit_fresh (s : State) (o : Output) : (s.emit o).fresh = s.fresh := rfl
@[simp] theorem State.emit_now (s : State) (o : Output) : (s.emit o).now = s.now := rfl
@[simp] theorem State.emit_reg (s : State) (o : Output) : (s.emit o).reg = s.reg := rfl
@[simp] theorem State.emit_acts (s : State) (o : Output) : (s.emit o).acts = s.acts := rfl
@[simp] theorem State.emit_clap (s : State) (o : Output) : (s.emit o).clap = s.clap := rfl
@[simp] theorem State.emit_ptp (s : State) (o : Output) : (s.emit o).ptp = s.ptp := rfl
@[simp] theorem State.emit_sched (s : State) (o : Output) : (s.emit o).sched = s.sched := rfl
@[simp] theorem State.emit_script (s : State) (o : Output) : (s.emit o).script = s.script := rfl
@[simp] theorem State.emit_parts (s : State) (o : Output) : (s.emit o).parts = s.parts := rfl
@[simp] theorem State.emit_stores (s : State) (o : Output) : (s.emit o).stores = s.stores := rfl
@[simp] theorem State.emit_sec (s : State) (o : Output) : (s.emit o).sec = s.sec := rfl
@[simp] theorem State.emit_units (s : State) (o : Output) : (s.emit o).units = s.units := rfl
@[simp] theorem State.emit_splicer (s : State) (o : Output) : (s.emit o).splicer = s.splicer := rfl
@[simp] theorem State.emit_tele (s : State) (o : Output) : (s.emit o).tele = s.tele := rfl
@[simp] theorem State.emit_d2d (s : State) (o : Output) : (s.emit o).d2d = s.d2d := rfl
@[simp] theorem State.emit_links (s : State) (o : Output) : (s.emit o).links = s.links := rfl
@[simp] theorem State.emit_twin (s : State) (o : Output) : (s.emit o).twin = s.twin := rfl
@[simp] theorem State.emit_power (s : State) (o : Output) : (s.emit o).power = s.power := rfl
@[simp] theorem State.emit_boot (s : State) (o : Output) : (s.emit o).boot = s.boot := rfl
@[simp] theorem State.emit_reh (s : State) (o : Output) : (s.emit o).reh = s.reh := rfl
@[simp] theorem State.emit_dly (s : State) (o : Output) : (s.emit o).dly = s.dly := rfl
@[simp] theorem State.emit_shot (s : State) (o : Output) : (s.emit o).shot = s.shot := rfl

/-! ### State.modHdr -/

@[simp] theorem State.modHdr_pending (s : State) (pg : Nat) (f : Hdr → Hdr) : (s.modHdr pg f).pending = s.pending := rfl
@[simp] theorem State.modHdr_out (s : State) (pg : Nat) (f : Hdr → Hdr) : (s.modHdr pg f).out = s.out := rfl
@[simp] theorem State.modHdr_fresh (s : State) (pg : Nat) (f : Hdr → Hdr) : (s.modHdr pg f).fresh = s.fresh := rfl
@[simp] theorem State.modHdr_now (s : State) (pg : Nat) (f : Hdr → Hdr) : (s.modHdr pg f).now = s.now := rfl
@[simp] theorem State.modHdr_acts (s : State) (pg : Nat) (f : Hdr → Hdr) : (s.modHdr pg f).acts = s.acts := rfl
@[simp] theorem State.modHdr_clap (s : State) (pg : Nat) (f : Hdr → Hdr) : (s.modHdr pg f).clap = s.clap := rfl
@[simp] theorem State.modHdr_ptp (s : State) (pg : Nat) (f : Hdr → Hdr) : (s.modHdr pg f).ptp = s.ptp := rfl
@[simp] theorem State.modHdr_sched (s : State) (pg : Nat) (f : Hdr → Hdr) : (s.modHdr pg f).sched = s.sched := rfl
@[simp] theorem State.modHdr_script (s : State) (pg : Nat) (f : Hdr → Hdr) : (s.modHdr pg f).script = s.script := rfl
@[simp] theorem State.modHdr_parts (s : State) (pg : Nat) (f : Hdr → Hdr) : (s.modHdr pg f).parts = s.parts := rfl
@[simp] theorem State.modHdr_stores (s : State) (pg : Nat) (f : Hdr → Hdr) : (s.modHdr pg f).stores = s.stores := rfl
@[simp] theorem State.modHdr_sec (s : State) (pg : Nat) (f : Hdr → Hdr) : (s.modHdr pg f).sec = s.sec := rfl
@[simp] theorem State.modHdr_units (s : State) (pg : Nat) (f : Hdr → Hdr) : (s.modHdr pg f).units = s.units := rfl
@[simp] theorem State.modHdr_splicer (s : State) (pg : Nat) (f : Hdr → Hdr) : (s.modHdr pg f).splicer = s.splicer := rfl
@[simp] theorem State.modHdr_tele (s : State) (pg : Nat) (f : Hdr → Hdr) : (s.modHdr pg f).tele = s.tele := rfl
@[simp] theorem State.modHdr_d2d (s : State) (pg : Nat) (f : Hdr → Hdr) : (s.modHdr pg f).d2d = s.d2d := rfl
@[simp] theorem State.modHdr_links (s : State) (pg : Nat) (f : Hdr → Hdr) : (s.modHdr pg f).links = s.links := rfl
@[simp] theorem State.modHdr_twin (s : State) (pg : Nat) (f : Hdr → Hdr) : (s.modHdr pg f).twin = s.twin := rfl
@[simp] theorem State.modHdr_power (s : State) (pg : Nat) (f : Hdr → Hdr) : (s.modHdr pg f).power = s.power := rfl
@[simp] theorem State.modHdr_boot (s : State) (pg : Nat) (f : Hdr → Hdr) : (s.modHdr pg f).boot = s.boot := rfl
@[simp] theorem State.modHdr_reh (s : State) (pg : Nat) (f : Hdr → Hdr) : (s.modHdr pg f).reh = s.reh := rfl
@[simp] theorem State.modHdr_dly (s : State) (pg : Nat) (f : Hdr → Hdr) : (s.modHdr pg f).dly = s.dly := rfl
@[simp] theorem State.modHdr_shot (s : State) (pg : Nat) (f : Hdr → Hdr) : (s.modHdr pg f).shot = s.shot := rfl

/-! ### State.wr -/

@[simp] theorem State.wr_pending (s : State) (pg off : Nat) (v : Word) : (s.wr pg off v).pending = s.pending := rfl
@[simp] theorem State.wr_out (s : State) (pg off : Nat) (v : Word) : (s.wr pg off v).out = s.out := rfl
@[simp] theorem State.wr_fresh (s : State) (pg off : Nat) (v : Word) : (s.wr pg off v).fresh = s.fresh := rfl
@[simp] theorem State.wr_now (s : State) (pg off : Nat) (v : Word) : (s.wr pg off v).now = s.now := rfl
@[simp] theorem State.wr_acts (s : State) (pg off : Nat) (v : Word) : (s.wr pg off v).acts = s.acts := rfl
@[simp] theorem State.wr_clap (s : State) (pg off : Nat) (v : Word) : (s.wr pg off v).clap = s.clap := rfl
@[simp] theorem State.wr_ptp (s : State) (pg off : Nat) (v : Word) : (s.wr pg off v).ptp = s.ptp := rfl
@[simp] theorem State.wr_sched (s : State) (pg off : Nat) (v : Word) : (s.wr pg off v).sched = s.sched := rfl
@[simp] theorem State.wr_script (s : State) (pg off : Nat) (v : Word) : (s.wr pg off v).script = s.script := rfl
@[simp] theorem State.wr_parts (s : State) (pg off : Nat) (v : Word) : (s.wr pg off v).parts = s.parts := rfl
@[simp] theorem State.wr_stores (s : State) (pg off : Nat) (v : Word) : (s.wr pg off v).stores = s.stores := rfl
@[simp] theorem State.wr_sec (s : State) (pg off : Nat) (v : Word) : (s.wr pg off v).sec = s.sec := rfl
@[simp] theorem State.wr_units (s : State) (pg off : Nat) (v : Word) : (s.wr pg off v).units = s.units := rfl
@[simp] theorem State.wr_splicer (s : State) (pg off : Nat) (v : Word) : (s.wr pg off v).splicer = s.splicer := rfl
@[simp] theorem State.wr_tele (s : State) (pg off : Nat) (v : Word) : (s.wr pg off v).tele = s.tele := rfl
@[simp] theorem State.wr_d2d (s : State) (pg off : Nat) (v : Word) : (s.wr pg off v).d2d = s.d2d := rfl
@[simp] theorem State.wr_links (s : State) (pg off : Nat) (v : Word) : (s.wr pg off v).links = s.links := rfl
@[simp] theorem State.wr_twin (s : State) (pg off : Nat) (v : Word) : (s.wr pg off v).twin = s.twin := rfl
@[simp] theorem State.wr_power (s : State) (pg off : Nat) (v : Word) : (s.wr pg off v).power = s.power := rfl
@[simp] theorem State.wr_boot (s : State) (pg off : Nat) (v : Word) : (s.wr pg off v).boot = s.boot := rfl
@[simp] theorem State.wr_reh (s : State) (pg off : Nat) (v : Word) : (s.wr pg off v).reh = s.reh := rfl
@[simp] theorem State.wr_dly (s : State) (pg off : Nat) (v : Word) : (s.wr pg off v).dly = s.dly := rfl
@[simp] theorem State.wr_shot (s : State) (pg off : Nat) (v : Word) : (s.wr pg off v).shot = s.shot := rfl

/-! ### State.wrForce -/

@[simp] theorem State.wrForce_pending (s : State) (pg off : Nat) (v : Word) : (s.wrForce pg off v).pending = s.pending := rfl
@[simp] theorem State.wrForce_out (s : State) (pg off : Nat) (v : Word) : (s.wrForce pg off v).out = s.out := rfl
@[simp] theorem State.wrForce_fresh (s : State) (pg off : Nat) (v : Word) : (s.wrForce pg off v).fresh = s.fresh := rfl
@[simp] theorem State.wrForce_now (s : State) (pg off : Nat) (v : Word) : (s.wrForce pg off v).now = s.now := rfl
@[simp] theorem State.wrForce_acts (s : State) (pg off : Nat) (v : Word) : (s.wrForce pg off v).acts = s.acts := rfl
@[simp] theorem State.wrForce_clap (s : State) (pg off : Nat) (v : Word) : (s.wrForce pg off v).clap = s.clap := rfl
@[simp] theorem State.wrForce_ptp (s : State) (pg off : Nat) (v : Word) : (s.wrForce pg off v).ptp = s.ptp := rfl
@[simp] theorem State.wrForce_sched (s : State) (pg off : Nat) (v : Word) : (s.wrForce pg off v).sched = s.sched := rfl
@[simp] theorem State.wrForce_script (s : State) (pg off : Nat) (v : Word) : (s.wrForce pg off v).script = s.script := rfl
@[simp] theorem State.wrForce_parts (s : State) (pg off : Nat) (v : Word) : (s.wrForce pg off v).parts = s.parts := rfl
@[simp] theorem State.wrForce_stores (s : State) (pg off : Nat) (v : Word) : (s.wrForce pg off v).stores = s.stores := rfl
@[simp] theorem State.wrForce_sec (s : State) (pg off : Nat) (v : Word) : (s.wrForce pg off v).sec = s.sec := rfl
@[simp] theorem State.wrForce_units (s : State) (pg off : Nat) (v : Word) : (s.wrForce pg off v).units = s.units := rfl
@[simp] theorem State.wrForce_splicer (s : State) (pg off : Nat) (v : Word) : (s.wrForce pg off v).splicer = s.splicer := rfl
@[simp] theorem State.wrForce_tele (s : State) (pg off : Nat) (v : Word) : (s.wrForce pg off v).tele = s.tele := rfl
@[simp] theorem State.wrForce_d2d (s : State) (pg off : Nat) (v : Word) : (s.wrForce pg off v).d2d = s.d2d := rfl
@[simp] theorem State.wrForce_links (s : State) (pg off : Nat) (v : Word) : (s.wrForce pg off v).links = s.links := rfl
@[simp] theorem State.wrForce_twin (s : State) (pg off : Nat) (v : Word) : (s.wrForce pg off v).twin = s.twin := rfl
@[simp] theorem State.wrForce_power (s : State) (pg off : Nat) (v : Word) : (s.wrForce pg off v).power = s.power := rfl
@[simp] theorem State.wrForce_boot (s : State) (pg off : Nat) (v : Word) : (s.wrForce pg off v).boot = s.boot := rfl
@[simp] theorem State.wrForce_reh (s : State) (pg off : Nat) (v : Word) : (s.wrForce pg off v).reh = s.reh := rfl
@[simp] theorem State.wrForce_dly (s : State) (pg off : Nat) (v : Word) : (s.wrForce pg off v).dly = s.dly := rfl
@[simp] theorem State.wrForce_shot (s : State) (pg off : Nat) (v : Word) : (s.wrForce pg off v).shot = s.shot := rfl

/-! ### State.count -/

@[simp] theorem State.count_pending (s : State) (pg off n : Nat) : (s.count pg off n).pending = s.pending := rfl
@[simp] theorem State.count_out (s : State) (pg off n : Nat) : (s.count pg off n).out = s.out := rfl
@[simp] theorem State.count_fresh (s : State) (pg off n : Nat) : (s.count pg off n).fresh = s.fresh := rfl
@[simp] theorem State.count_now (s : State) (pg off n : Nat) : (s.count pg off n).now = s.now := rfl
@[simp] theorem State.count_acts (s : State) (pg off n : Nat) : (s.count pg off n).acts = s.acts := rfl
@[simp] theorem State.count_clap (s : State) (pg off n : Nat) : (s.count pg off n).clap = s.clap := rfl
@[simp] theorem State.count_ptp (s : State) (pg off n : Nat) : (s.count pg off n).ptp = s.ptp := rfl
@[simp] theorem State.count_sched (s : State) (pg off n : Nat) : (s.count pg off n).sched = s.sched := rfl
@[simp] theorem State.count_script (s : State) (pg off n : Nat) : (s.count pg off n).script = s.script := rfl
@[simp] theorem State.count_parts (s : State) (pg off n : Nat) : (s.count pg off n).parts = s.parts := rfl
@[simp] theorem State.count_stores (s : State) (pg off n : Nat) : (s.count pg off n).stores = s.stores := rfl
@[simp] theorem State.count_sec (s : State) (pg off n : Nat) : (s.count pg off n).sec = s.sec := rfl
@[simp] theorem State.count_units (s : State) (pg off n : Nat) : (s.count pg off n).units = s.units := rfl
@[simp] theorem State.count_splicer (s : State) (pg off n : Nat) : (s.count pg off n).splicer = s.splicer := rfl
@[simp] theorem State.count_tele (s : State) (pg off n : Nat) : (s.count pg off n).tele = s.tele := rfl
@[simp] theorem State.count_d2d (s : State) (pg off n : Nat) : (s.count pg off n).d2d = s.d2d := rfl
@[simp] theorem State.count_links (s : State) (pg off n : Nat) : (s.count pg off n).links = s.links := rfl
@[simp] theorem State.count_twin (s : State) (pg off n : Nat) : (s.count pg off n).twin = s.twin := rfl
@[simp] theorem State.count_power (s : State) (pg off n : Nat) : (s.count pg off n).power = s.power := rfl
@[simp] theorem State.count_boot (s : State) (pg off n : Nat) : (s.count pg off n).boot = s.boot := rfl
@[simp] theorem State.count_reh (s : State) (pg off n : Nat) : (s.count pg off n).reh = s.reh := rfl
@[simp] theorem State.count_dly (s : State) (pg off n : Nat) : (s.count pg off n).dly = s.dly := rfl
@[simp] theorem State.count_shot (s : State) (pg off n : Nat) : (s.count pg off n).shot = s.shot := rfl

/-! ### State.takeForce -/

@[simp] theorem State.takeForce_pending (s : State) (key : Nat) : (s.takeForce key).pending = s.pending := rfl
@[simp] theorem State.takeForce_out (s : State) (key : Nat) : (s.takeForce key).out = s.out := rfl
@[simp] theorem State.takeForce_fresh (s : State) (key : Nat) : (s.takeForce key).fresh = s.fresh := rfl
@[simp] theorem State.takeForce_now (s : State) (key : Nat) : (s.takeForce key).now = s.now := rfl
@[simp] theorem State.takeForce_acts (s : State) (key : Nat) : (s.takeForce key).acts = s.acts := rfl
@[simp] theorem State.takeForce_clap (s : State) (key : Nat) : (s.takeForce key).clap = s.clap := rfl
@[simp] theorem State.takeForce_ptp (s : State) (key : Nat) : (s.takeForce key).ptp = s.ptp := rfl
@[simp] theorem State.takeForce_sched (s : State) (key : Nat) : (s.takeForce key).sched = s.sched := rfl
@[simp] theorem State.takeForce_script (s : State) (key : Nat) : (s.takeForce key).script = s.script := rfl
@[simp] theorem State.takeForce_parts (s : State) (key : Nat) : (s.takeForce key).parts = s.parts := rfl
@[simp] theorem State.takeForce_stores (s : State) (key : Nat) : (s.takeForce key).stores = s.stores := rfl
@[simp] theorem State.takeForce_sec (s : State) (key : Nat) : (s.takeForce key).sec = s.sec := rfl
@[simp] theorem State.takeForce_units (s : State) (key : Nat) : (s.takeForce key).units = s.units := rfl
@[simp] theorem State.takeForce_splicer (s : State) (key : Nat) : (s.takeForce key).splicer = s.splicer := rfl
@[simp] theorem State.takeForce_tele (s : State) (key : Nat) : (s.takeForce key).tele = s.tele := rfl
@[simp] theorem State.takeForce_d2d (s : State) (key : Nat) : (s.takeForce key).d2d = s.d2d := rfl
@[simp] theorem State.takeForce_links (s : State) (key : Nat) : (s.takeForce key).links = s.links := rfl
@[simp] theorem State.takeForce_twin (s : State) (key : Nat) : (s.takeForce key).twin = s.twin := rfl
@[simp] theorem State.takeForce_power (s : State) (key : Nat) : (s.takeForce key).power = s.power := rfl
@[simp] theorem State.takeForce_boot (s : State) (key : Nat) : (s.takeForce key).boot = s.boot := rfl
@[simp] theorem State.takeForce_reh (s : State) (key : Nat) : (s.takeForce key).reh = s.reh := rfl
@[simp] theorem State.takeForce_dly (s : State) (key : Nat) : (s.takeForce key).dly = s.dly := rfl
@[simp] theorem State.takeForce_shot (s : State) (key : Nat) : (s.takeForce key).shot = s.shot := rfl

/-! ### State.modPart -/

@[simp] theorem State.modPart_pending (s : State) (p : Nat) (f : Part → Part) : (s.modPart p f).pending = s.pending := rfl
@[simp] theorem State.modPart_out (s : State) (p : Nat) (f : Part → Part) : (s.modPart p f).out = s.out := rfl
@[simp] theorem State.modPart_fresh (s : State) (p : Nat) (f : Part → Part) : (s.modPart p f).fresh = s.fresh := rfl
@[simp] theorem State.modPart_now (s : State) (p : Nat) (f : Part → Part) : (s.modPart p f).now = s.now := rfl
@[simp] theorem State.modPart_reg (s : State) (p : Nat) (f : Part → Part) : (s.modPart p f).reg = s.reg := rfl
@[simp] theorem State.modPart_acts (s : State) (p : Nat) (f : Part → Part) : (s.modPart p f).acts = s.acts := rfl
@[simp] theorem State.modPart_clap (s : State) (p : Nat) (f : Part → Part) : (s.modPart p f).clap = s.clap := rfl
@[simp] theorem State.modPart_ptp (s : State) (p : Nat) (f : Part → Part) : (s.modPart p f).ptp = s.ptp := rfl
@[simp] theorem State.modPart_sched (s : State) (p : Nat) (f : Part → Part) : (s.modPart p f).sched = s.sched := rfl
@[simp] theorem State.modPart_script (s : State) (p : Nat) (f : Part → Part) : (s.modPart p f).script = s.script := rfl
@[simp] theorem State.modPart_stores (s : State) (p : Nat) (f : Part → Part) : (s.modPart p f).stores = s.stores := rfl
@[simp] theorem State.modPart_sec (s : State) (p : Nat) (f : Part → Part) : (s.modPart p f).sec = s.sec := rfl
@[simp] theorem State.modPart_units (s : State) (p : Nat) (f : Part → Part) : (s.modPart p f).units = s.units := rfl
@[simp] theorem State.modPart_splicer (s : State) (p : Nat) (f : Part → Part) : (s.modPart p f).splicer = s.splicer := rfl
@[simp] theorem State.modPart_tele (s : State) (p : Nat) (f : Part → Part) : (s.modPart p f).tele = s.tele := rfl
@[simp] theorem State.modPart_d2d (s : State) (p : Nat) (f : Part → Part) : (s.modPart p f).d2d = s.d2d := rfl
@[simp] theorem State.modPart_links (s : State) (p : Nat) (f : Part → Part) : (s.modPart p f).links = s.links := rfl
@[simp] theorem State.modPart_twin (s : State) (p : Nat) (f : Part → Part) : (s.modPart p f).twin = s.twin := rfl
@[simp] theorem State.modPart_power (s : State) (p : Nat) (f : Part → Part) : (s.modPart p f).power = s.power := rfl
@[simp] theorem State.modPart_boot (s : State) (p : Nat) (f : Part → Part) : (s.modPart p f).boot = s.boot := rfl
@[simp] theorem State.modPart_reh (s : State) (p : Nat) (f : Part → Part) : (s.modPart p f).reh = s.reh := rfl
@[simp] theorem State.modPart_dly (s : State) (p : Nat) (f : Part → Part) : (s.modPart p f).dly = s.dly := rfl
@[simp] theorem State.modPart_shot (s : State) (p : Nat) (f : Part → Part) : (s.modPart p f).shot = s.shot := rfl

/-! ### State.modCtl -/

@[simp] theorem State.modCtl_pending (s : State) (m : Nat) (f : Ctl → Ctl) : (s.modCtl m f).pending = s.pending := rfl
@[simp] theorem State.modCtl_out (s : State) (m : Nat) (f : Ctl → Ctl) : (s.modCtl m f).out = s.out := rfl
@[simp] theorem State.modCtl_fresh (s : State) (m : Nat) (f : Ctl → Ctl) : (s.modCtl m f).fresh = s.fresh := rfl
@[simp] theorem State.modCtl_now (s : State) (m : Nat) (f : Ctl → Ctl) : (s.modCtl m f).now = s.now := rfl
@[simp] theorem State.modCtl_reg (s : State) (m : Nat) (f : Ctl → Ctl) : (s.modCtl m f).reg = s.reg := rfl
@[simp] theorem State.modCtl_acts (s : State) (m : Nat) (f : Ctl → Ctl) : (s.modCtl m f).acts = s.acts := rfl
@[simp] theorem State.modCtl_clap (s : State) (m : Nat) (f : Ctl → Ctl) : (s.modCtl m f).clap = s.clap := rfl
@[simp] theorem State.modCtl_ptp (s : State) (m : Nat) (f : Ctl → Ctl) : (s.modCtl m f).ptp = s.ptp := rfl
@[simp] theorem State.modCtl_sched (s : State) (m : Nat) (f : Ctl → Ctl) : (s.modCtl m f).sched = s.sched := rfl
@[simp] theorem State.modCtl_script (s : State) (m : Nat) (f : Ctl → Ctl) : (s.modCtl m f).script = s.script := rfl
@[simp] theorem State.modCtl_parts (s : State) (m : Nat) (f : Ctl → Ctl) : (s.modCtl m f).parts = s.parts := rfl
@[simp] theorem State.modCtl_sec (s : State) (m : Nat) (f : Ctl → Ctl) : (s.modCtl m f).sec = s.sec := rfl
@[simp] theorem State.modCtl_units (s : State) (m : Nat) (f : Ctl → Ctl) : (s.modCtl m f).units = s.units := rfl
@[simp] theorem State.modCtl_splicer (s : State) (m : Nat) (f : Ctl → Ctl) : (s.modCtl m f).splicer = s.splicer := rfl
@[simp] theorem State.modCtl_tele (s : State) (m : Nat) (f : Ctl → Ctl) : (s.modCtl m f).tele = s.tele := rfl
@[simp] theorem State.modCtl_d2d (s : State) (m : Nat) (f : Ctl → Ctl) : (s.modCtl m f).d2d = s.d2d := rfl
@[simp] theorem State.modCtl_links (s : State) (m : Nat) (f : Ctl → Ctl) : (s.modCtl m f).links = s.links := rfl
@[simp] theorem State.modCtl_twin (s : State) (m : Nat) (f : Ctl → Ctl) : (s.modCtl m f).twin = s.twin := rfl
@[simp] theorem State.modCtl_power (s : State) (m : Nat) (f : Ctl → Ctl) : (s.modCtl m f).power = s.power := rfl
@[simp] theorem State.modCtl_boot (s : State) (m : Nat) (f : Ctl → Ctl) : (s.modCtl m f).boot = s.boot := rfl
@[simp] theorem State.modCtl_reh (s : State) (m : Nat) (f : Ctl → Ctl) : (s.modCtl m f).reh = s.reh := rfl
@[simp] theorem State.modCtl_dly (s : State) (m : Nat) (f : Ctl → Ctl) : (s.modCtl m f).dly = s.dly := rfl
@[simp] theorem State.modCtl_shot (s : State) (m : Nat) (f : Ctl → Ctl) : (s.modCtl m f).shot = s.shot := rfl

/-! ### State.modUnit -/

@[simp] theorem State.modUnit_pending (s : State) (pg : Nat) (f : Unit' → Unit') : (s.modUnit pg f).pending = s.pending := rfl
@[simp] theorem State.modUnit_out (s : State) (pg : Nat) (f : Unit' → Unit') : (s.modUnit pg f).out = s.out := rfl
@[simp] theorem State.modUnit_fresh (s : State) (pg : Nat) (f : Unit' → Unit') : (s.modUnit pg f).fresh = s.fresh := rfl
@[simp] theorem State.modUnit_now (s : State) (pg : Nat) (f : Unit' → Unit') : (s.modUnit pg f).now = s.now := rfl
@[simp] theorem State.modUnit_reg (s : State) (pg : Nat) (f : Unit' → Unit') : (s.modUnit pg f).reg = s.reg := rfl
@[simp] theorem State.modUnit_acts (s : State) (pg : Nat) (f : Unit' → Unit') : (s.modUnit pg f).acts = s.acts := rfl
@[simp] theorem State.modUnit_clap (s : State) (pg : Nat) (f : Unit' → Unit') : (s.modUnit pg f).clap = s.clap := rfl
@[simp] theorem State.modUnit_ptp (s : State) (pg : Nat) (f : Unit' → Unit') : (s.modUnit pg f).ptp = s.ptp := rfl
@[simp] theorem State.modUnit_sched (s : State) (pg : Nat) (f : Unit' → Unit') : (s.modUnit pg f).sched = s.sched := rfl
@[simp] theorem State.modUnit_script (s : State) (pg : Nat) (f : Unit' → Unit') : (s.modUnit pg f).script = s.script := rfl
@[simp] theorem State.modUnit_parts (s : State) (pg : Nat) (f : Unit' → Unit') : (s.modUnit pg f).parts = s.parts := rfl
@[simp] theorem State.modUnit_stores (s : State) (pg : Nat) (f : Unit' → Unit') : (s.modUnit pg f).stores = s.stores := rfl
@[simp] theorem State.modUnit_sec (s : State) (pg : Nat) (f : Unit' → Unit') : (s.modUnit pg f).sec = s.sec := rfl
@[simp] theorem State.modUnit_splicer (s : State) (pg : Nat) (f : Unit' → Unit') : (s.modUnit pg f).splicer = s.splicer := rfl
@[simp] theorem State.modUnit_tele (s : State) (pg : Nat) (f : Unit' → Unit') : (s.modUnit pg f).tele = s.tele := rfl
@[simp] theorem State.modUnit_d2d (s : State) (pg : Nat) (f : Unit' → Unit') : (s.modUnit pg f).d2d = s.d2d := rfl
@[simp] theorem State.modUnit_links (s : State) (pg : Nat) (f : Unit' → Unit') : (s.modUnit pg f).links = s.links := rfl
@[simp] theorem State.modUnit_twin (s : State) (pg : Nat) (f : Unit' → Unit') : (s.modUnit pg f).twin = s.twin := rfl
@[simp] theorem State.modUnit_power (s : State) (pg : Nat) (f : Unit' → Unit') : (s.modUnit pg f).power = s.power := rfl
@[simp] theorem State.modUnit_boot (s : State) (pg : Nat) (f : Unit' → Unit') : (s.modUnit pg f).boot = s.boot := rfl
@[simp] theorem State.modUnit_reh (s : State) (pg : Nat) (f : Unit' → Unit') : (s.modUnit pg f).reh = s.reh := rfl
@[simp] theorem State.modUnit_dly (s : State) (pg : Nat) (f : Unit' → Unit') : (s.modUnit pg f).dly = s.dly := rfl
@[simp] theorem State.modUnit_shot (s : State) (pg : Nat) (f : Unit' → Unit') : (s.modUnit pg f).shot = s.shot := rfl

/-! ### State.modChan -/

@[simp] theorem State.modChan_pending (s : State) (c : Nat) (f : Channel → Channel) : (s.modChan c f).pending = s.pending := rfl
@[simp] theorem State.modChan_out (s : State) (c : Nat) (f : Channel → Channel) : (s.modChan c f).out = s.out := rfl
@[simp] theorem State.modChan_fresh (s : State) (c : Nat) (f : Channel → Channel) : (s.modChan c f).fresh = s.fresh := rfl
@[simp] theorem State.modChan_now (s : State) (c : Nat) (f : Channel → Channel) : (s.modChan c f).now = s.now := rfl
@[simp] theorem State.modChan_reg (s : State) (c : Nat) (f : Channel → Channel) : (s.modChan c f).reg = s.reg := rfl
@[simp] theorem State.modChan_acts (s : State) (c : Nat) (f : Channel → Channel) : (s.modChan c f).acts = s.acts := rfl
@[simp] theorem State.modChan_clap (s : State) (c : Nat) (f : Channel → Channel) : (s.modChan c f).clap = s.clap := rfl
@[simp] theorem State.modChan_ptp (s : State) (c : Nat) (f : Channel → Channel) : (s.modChan c f).ptp = s.ptp := rfl
@[simp] theorem State.modChan_sched (s : State) (c : Nat) (f : Channel → Channel) : (s.modChan c f).sched = s.sched := rfl
@[simp] theorem State.modChan_script (s : State) (c : Nat) (f : Channel → Channel) : (s.modChan c f).script = s.script := rfl
@[simp] theorem State.modChan_parts (s : State) (c : Nat) (f : Channel → Channel) : (s.modChan c f).parts = s.parts := rfl
@[simp] theorem State.modChan_stores (s : State) (c : Nat) (f : Channel → Channel) : (s.modChan c f).stores = s.stores := rfl
@[simp] theorem State.modChan_sec (s : State) (c : Nat) (f : Channel → Channel) : (s.modChan c f).sec = s.sec := rfl
@[simp] theorem State.modChan_units (s : State) (c : Nat) (f : Channel → Channel) : (s.modChan c f).units = s.units := rfl
@[simp] theorem State.modChan_tele (s : State) (c : Nat) (f : Channel → Channel) : (s.modChan c f).tele = s.tele := rfl
@[simp] theorem State.modChan_d2d (s : State) (c : Nat) (f : Channel → Channel) : (s.modChan c f).d2d = s.d2d := rfl
@[simp] theorem State.modChan_links (s : State) (c : Nat) (f : Channel → Channel) : (s.modChan c f).links = s.links := rfl
@[simp] theorem State.modChan_twin (s : State) (c : Nat) (f : Channel → Channel) : (s.modChan c f).twin = s.twin := rfl
@[simp] theorem State.modChan_power (s : State) (c : Nat) (f : Channel → Channel) : (s.modChan c f).power = s.power := rfl
@[simp] theorem State.modChan_boot (s : State) (c : Nat) (f : Channel → Channel) : (s.modChan c f).boot = s.boot := rfl
@[simp] theorem State.modChan_reh (s : State) (c : Nat) (f : Channel → Channel) : (s.modChan c f).reh = s.reh := rfl
@[simp] theorem State.modChan_dly (s : State) (c : Nat) (f : Channel → Channel) : (s.modChan c f).dly = s.dly := rfl
@[simp] theorem State.modChan_shot (s : State) (c : Nat) (f : Channel → Channel) : (s.modChan c f).shot = s.shot := rfl

/-! ### State.modTctx -/

@[simp] theorem State.modTctx_pending (s : State) (c : Nat) (f : TeleCtx → TeleCtx) : (s.modTctx c f).pending = s.pending := rfl
@[simp] theorem State.modTctx_out (s : State) (c : Nat) (f : TeleCtx → TeleCtx) : (s.modTctx c f).out = s.out := rfl
@[simp] theorem State.modTctx_fresh (s : State) (c : Nat) (f : TeleCtx → TeleCtx) : (s.modTctx c f).fresh = s.fresh := rfl
@[simp] theorem State.modTctx_now (s : State) (c : Nat) (f : TeleCtx → TeleCtx) : (s.modTctx c f).now = s.now := rfl
@[simp] theorem State.modTctx_reg (s : State) (c : Nat) (f : TeleCtx → TeleCtx) : (s.modTctx c f).reg = s.reg := rfl
@[simp] theorem State.modTctx_acts (s : State) (c : Nat) (f : TeleCtx → TeleCtx) : (s.modTctx c f).acts = s.acts := rfl
@[simp] theorem State.modTctx_clap (s : State) (c : Nat) (f : TeleCtx → TeleCtx) : (s.modTctx c f).clap = s.clap := rfl
@[simp] theorem State.modTctx_ptp (s : State) (c : Nat) (f : TeleCtx → TeleCtx) : (s.modTctx c f).ptp = s.ptp := rfl
@[simp] theorem State.modTctx_sched (s : State) (c : Nat) (f : TeleCtx → TeleCtx) : (s.modTctx c f).sched = s.sched := rfl
@[simp] theorem State.modTctx_script (s : State) (c : Nat) (f : TeleCtx → TeleCtx) : (s.modTctx c f).script = s.script := rfl
@[simp] theorem State.modTctx_parts (s : State) (c : Nat) (f : TeleCtx → TeleCtx) : (s.modTctx c f).parts = s.parts := rfl
@[simp] theorem State.modTctx_stores (s : State) (c : Nat) (f : TeleCtx → TeleCtx) : (s.modTctx c f).stores = s.stores := rfl
@[simp] theorem State.modTctx_sec (s : State) (c : Nat) (f : TeleCtx → TeleCtx) : (s.modTctx c f).sec = s.sec := rfl
@[simp] theorem State.modTctx_units (s : State) (c : Nat) (f : TeleCtx → TeleCtx) : (s.modTctx c f).units = s.units := rfl
@[simp] theorem State.modTctx_splicer (s : State) (c : Nat) (f : TeleCtx → TeleCtx) : (s.modTctx c f).splicer = s.splicer := rfl
@[simp] theorem State.modTctx_d2d (s : State) (c : Nat) (f : TeleCtx → TeleCtx) : (s.modTctx c f).d2d = s.d2d := rfl
@[simp] theorem State.modTctx_links (s : State) (c : Nat) (f : TeleCtx → TeleCtx) : (s.modTctx c f).links = s.links := rfl
@[simp] theorem State.modTctx_twin (s : State) (c : Nat) (f : TeleCtx → TeleCtx) : (s.modTctx c f).twin = s.twin := rfl
@[simp] theorem State.modTctx_power (s : State) (c : Nat) (f : TeleCtx → TeleCtx) : (s.modTctx c f).power = s.power := rfl
@[simp] theorem State.modTctx_boot (s : State) (c : Nat) (f : TeleCtx → TeleCtx) : (s.modTctx c f).boot = s.boot := rfl
@[simp] theorem State.modTctx_reh (s : State) (c : Nat) (f : TeleCtx → TeleCtx) : (s.modTctx c f).reh = s.reh := rfl
@[simp] theorem State.modTctx_dly (s : State) (c : Nat) (f : TeleCtx → TeleCtx) : (s.modTctx c f).dly = s.dly := rfl
@[simp] theorem State.modTctx_shot (s : State) (c : Nat) (f : TeleCtx → TeleCtx) : (s.modTctx c f).shot = s.shot := rfl

/-! ### State.modPort -/

@[simp] theorem State.modPort_pending (s : State) (q : Nat) (f : Port → Port) : (s.modPort q f).pending = s.pending := rfl
@[simp] theorem State.modPort_out (s : State) (q : Nat) (f : Port → Port) : (s.modPort q f).out = s.out := rfl
@[simp] theorem State.modPort_fresh (s : State) (q : Nat) (f : Port → Port) : (s.modPort q f).fresh = s.fresh := rfl
@[simp] theorem State.modPort_now (s : State) (q : Nat) (f : Port → Port) : (s.modPort q f).now = s.now := rfl
@[simp] theorem State.modPort_reg (s : State) (q : Nat) (f : Port → Port) : (s.modPort q f).reg = s.reg := rfl
@[simp] theorem State.modPort_acts (s : State) (q : Nat) (f : Port → Port) : (s.modPort q f).acts = s.acts := rfl
@[simp] theorem State.modPort_clap (s : State) (q : Nat) (f : Port → Port) : (s.modPort q f).clap = s.clap := rfl
@[simp] theorem State.modPort_ptp (s : State) (q : Nat) (f : Port → Port) : (s.modPort q f).ptp = s.ptp := rfl
@[simp] theorem State.modPort_sched (s : State) (q : Nat) (f : Port → Port) : (s.modPort q f).sched = s.sched := rfl
@[simp] theorem State.modPort_script (s : State) (q : Nat) (f : Port → Port) : (s.modPort q f).script = s.script := rfl
@[simp] theorem State.modPort_parts (s : State) (q : Nat) (f : Port → Port) : (s.modPort q f).parts = s.parts := rfl
@[simp] theorem State.modPort_stores (s : State) (q : Nat) (f : Port → Port) : (s.modPort q f).stores = s.stores := rfl
@[simp] theorem State.modPort_sec (s : State) (q : Nat) (f : Port → Port) : (s.modPort q f).sec = s.sec := rfl
@[simp] theorem State.modPort_units (s : State) (q : Nat) (f : Port → Port) : (s.modPort q f).units = s.units := rfl
@[simp] theorem State.modPort_splicer (s : State) (q : Nat) (f : Port → Port) : (s.modPort q f).splicer = s.splicer := rfl
@[simp] theorem State.modPort_tele (s : State) (q : Nat) (f : Port → Port) : (s.modPort q f).tele = s.tele := rfl
@[simp] theorem State.modPort_d2d (s : State) (q : Nat) (f : Port → Port) : (s.modPort q f).d2d = s.d2d := rfl
@[simp] theorem State.modPort_twin (s : State) (q : Nat) (f : Port → Port) : (s.modPort q f).twin = s.twin := rfl
@[simp] theorem State.modPort_power (s : State) (q : Nat) (f : Port → Port) : (s.modPort q f).power = s.power := rfl
@[simp] theorem State.modPort_boot (s : State) (q : Nat) (f : Port → Port) : (s.modPort q f).boot = s.boot := rfl
@[simp] theorem State.modPort_reh (s : State) (q : Nat) (f : Port → Port) : (s.modPort q f).reh = s.reh := rfl
@[simp] theorem State.modPort_dly (s : State) (q : Nat) (f : Port → Port) : (s.modPort q f).dly = s.dly := rfl
@[simp] theorem State.modPort_shot (s : State) (q : Nat) (f : Port → Port) : (s.modPort q f).shot = s.shot := rfl

/-! ### State.modDesc -/

@[simp] theorem State.modDesc_pending (s : State) (i : Nat) (f : Desc → Desc) : (s.modDesc i f).pending = s.pending := rfl
@[simp] theorem State.modDesc_out (s : State) (i : Nat) (f : Desc → Desc) : (s.modDesc i f).out = s.out := rfl
@[simp] theorem State.modDesc_fresh (s : State) (i : Nat) (f : Desc → Desc) : (s.modDesc i f).fresh = s.fresh := rfl
@[simp] theorem State.modDesc_now (s : State) (i : Nat) (f : Desc → Desc) : (s.modDesc i f).now = s.now := rfl
@[simp] theorem State.modDesc_reg (s : State) (i : Nat) (f : Desc → Desc) : (s.modDesc i f).reg = s.reg := rfl
@[simp] theorem State.modDesc_acts (s : State) (i : Nat) (f : Desc → Desc) : (s.modDesc i f).acts = s.acts := rfl
@[simp] theorem State.modDesc_clap (s : State) (i : Nat) (f : Desc → Desc) : (s.modDesc i f).clap = s.clap := rfl
@[simp] theorem State.modDesc_ptp (s : State) (i : Nat) (f : Desc → Desc) : (s.modDesc i f).ptp = s.ptp := rfl
@[simp] theorem State.modDesc_sched (s : State) (i : Nat) (f : Desc → Desc) : (s.modDesc i f).sched = s.sched := rfl
@[simp] theorem State.modDesc_parts (s : State) (i : Nat) (f : Desc → Desc) : (s.modDesc i f).parts = s.parts := rfl
@[simp] theorem State.modDesc_stores (s : State) (i : Nat) (f : Desc → Desc) : (s.modDesc i f).stores = s.stores := rfl
@[simp] theorem State.modDesc_sec (s : State) (i : Nat) (f : Desc → Desc) : (s.modDesc i f).sec = s.sec := rfl
@[simp] theorem State.modDesc_units (s : State) (i : Nat) (f : Desc → Desc) : (s.modDesc i f).units = s.units := rfl
@[simp] theorem State.modDesc_splicer (s : State) (i : Nat) (f : Desc → Desc) : (s.modDesc i f).splicer = s.splicer := rfl
@[simp] theorem State.modDesc_tele (s : State) (i : Nat) (f : Desc → Desc) : (s.modDesc i f).tele = s.tele := rfl
@[simp] theorem State.modDesc_d2d (s : State) (i : Nat) (f : Desc → Desc) : (s.modDesc i f).d2d = s.d2d := rfl
@[simp] theorem State.modDesc_links (s : State) (i : Nat) (f : Desc → Desc) : (s.modDesc i f).links = s.links := rfl
@[simp] theorem State.modDesc_twin (s : State) (i : Nat) (f : Desc → Desc) : (s.modDesc i f).twin = s.twin := rfl
@[simp] theorem State.modDesc_power (s : State) (i : Nat) (f : Desc → Desc) : (s.modDesc i f).power = s.power := rfl
@[simp] theorem State.modDesc_boot (s : State) (i : Nat) (f : Desc → Desc) : (s.modDesc i f).boot = s.boot := rfl
@[simp] theorem State.modDesc_reh (s : State) (i : Nat) (f : Desc → Desc) : (s.modDesc i f).reh = s.reh := rfl
@[simp] theorem State.modDesc_dly (s : State) (i : Nat) (f : Desc → Desc) : (s.modDesc i f).dly = s.dly := rfl
@[simp] theorem State.modDesc_shot (s : State) (i : Nat) (f : Desc → Desc) : (s.modDesc i f).shot = s.shot := rfl

/-! ### State.modReel -/

@[simp] theorem State.modReel_pending (s : State) (p h : Nat) (f : Reel → Reel) : (s.modReel p h f).pending = s.pending := rfl
@[simp] theorem State.modReel_out (s : State) (p h : Nat) (f : Reel → Reel) : (s.modReel p h f).out = s.out := rfl
@[simp] theorem State.modReel_fresh (s : State) (p h : Nat) (f : Reel → Reel) : (s.modReel p h f).fresh = s.fresh := rfl
@[simp] theorem State.modReel_now (s : State) (p h : Nat) (f : Reel → Reel) : (s.modReel p h f).now = s.now := rfl
@[simp] theorem State.modReel_reg (s : State) (p h : Nat) (f : Reel → Reel) : (s.modReel p h f).reg = s.reg := rfl
@[simp] theorem State.modReel_acts (s : State) (p h : Nat) (f : Reel → Reel) : (s.modReel p h f).acts = s.acts := rfl
@[simp] theorem State.modReel_clap (s : State) (p h : Nat) (f : Reel → Reel) : (s.modReel p h f).clap = s.clap := rfl
@[simp] theorem State.modReel_ptp (s : State) (p h : Nat) (f : Reel → Reel) : (s.modReel p h f).ptp = s.ptp := rfl
@[simp] theorem State.modReel_script (s : State) (p h : Nat) (f : Reel → Reel) : (s.modReel p h f).script = s.script := rfl
@[simp] theorem State.modReel_parts (s : State) (p h : Nat) (f : Reel → Reel) : (s.modReel p h f).parts = s.parts := rfl
@[simp] theorem State.modReel_stores (s : State) (p h : Nat) (f : Reel → Reel) : (s.modReel p h f).stores = s.stores := rfl
@[simp] theorem State.modReel_sec (s : State) (p h : Nat) (f : Reel → Reel) : (s.modReel p h f).sec = s.sec := rfl
@[simp] theorem State.modReel_units (s : State) (p h : Nat) (f : Reel → Reel) : (s.modReel p h f).units = s.units := rfl
@[simp] theorem State.modReel_splicer (s : State) (p h : Nat) (f : Reel → Reel) : (s.modReel p h f).splicer = s.splicer := rfl
@[simp] theorem State.modReel_tele (s : State) (p h : Nat) (f : Reel → Reel) : (s.modReel p h f).tele = s.tele := rfl
@[simp] theorem State.modReel_d2d (s : State) (p h : Nat) (f : Reel → Reel) : (s.modReel p h f).d2d = s.d2d := rfl
@[simp] theorem State.modReel_links (s : State) (p h : Nat) (f : Reel → Reel) : (s.modReel p h f).links = s.links := rfl
@[simp] theorem State.modReel_twin (s : State) (p h : Nat) (f : Reel → Reel) : (s.modReel p h f).twin = s.twin := rfl
@[simp] theorem State.modReel_power (s : State) (p h : Nat) (f : Reel → Reel) : (s.modReel p h f).power = s.power := rfl
@[simp] theorem State.modReel_boot (s : State) (p h : Nat) (f : Reel → Reel) : (s.modReel p h f).boot = s.boot := rfl
@[simp] theorem State.modReel_reh (s : State) (p h : Nat) (f : Reel → Reel) : (s.modReel p h f).reh = s.reh := rfl
@[simp] theorem State.modReel_dly (s : State) (p h : Nat) (f : Reel → Reel) : (s.modReel p h f).dly = s.dly := rfl
@[simp] theorem State.modReel_shot (s : State) (p h : Nat) (f : Reel → Reel) : (s.modReel p h f).shot = s.shot := rfl

/-! ### State.modPower -/

@[simp] theorem State.modPower_pending (s : State) (f : Power → Power) : (s.modPower f).pending = s.pending := rfl
@[simp] theorem State.modPower_out (s : State) (f : Power → Power) : (s.modPower f).out = s.out := rfl
@[simp] theorem State.modPower_fresh (s : State) (f : Power → Power) : (s.modPower f).fresh = s.fresh := rfl
@[simp] theorem State.modPower_now (s : State) (f : Power → Power) : (s.modPower f).now = s.now := rfl
@[simp] theorem State.modPower_reg (s : State) (f : Power → Power) : (s.modPower f).reg = s.reg := rfl
@[simp] theorem State.modPower_acts (s : State) (f : Power → Power) : (s.modPower f).acts = s.acts := rfl
@[simp] theorem State.modPower_clap (s : State) (f : Power → Power) : (s.modPower f).clap = s.clap := rfl
@[simp] theorem State.modPower_ptp (s : State) (f : Power → Power) : (s.modPower f).ptp = s.ptp := rfl
@[simp] theorem State.modPower_sched (s : State) (f : Power → Power) : (s.modPower f).sched = s.sched := rfl
@[simp] theorem State.modPower_script (s : State) (f : Power → Power) : (s.modPower f).script = s.script := rfl
@[simp] theorem State.modPower_parts (s : State) (f : Power → Power) : (s.modPower f).parts = s.parts := rfl
@[simp] theorem State.modPower_stores (s : State) (f : Power → Power) : (s.modPower f).stores = s.stores := rfl
@[simp] theorem State.modPower_sec (s : State) (f : Power → Power) : (s.modPower f).sec = s.sec := rfl
@[simp] theorem State.modPower_units (s : State) (f : Power → Power) : (s.modPower f).units = s.units := rfl
@[simp] theorem State.modPower_splicer (s : State) (f : Power → Power) : (s.modPower f).splicer = s.splicer := rfl
@[simp] theorem State.modPower_tele (s : State) (f : Power → Power) : (s.modPower f).tele = s.tele := rfl
@[simp] theorem State.modPower_d2d (s : State) (f : Power → Power) : (s.modPower f).d2d = s.d2d := rfl
@[simp] theorem State.modPower_links (s : State) (f : Power → Power) : (s.modPower f).links = s.links := rfl
@[simp] theorem State.modPower_twin (s : State) (f : Power → Power) : (s.modPower f).twin = s.twin := rfl
@[simp] theorem State.modPower_boot (s : State) (f : Power → Power) : (s.modPower f).boot = s.boot := rfl
@[simp] theorem State.modPower_reh (s : State) (f : Power → Power) : (s.modPower f).reh = s.reh := rfl
@[simp] theorem State.modPower_dly (s : State) (f : Power → Power) : (s.modPower f).dly = s.dly := rfl
@[simp] theorem State.modPower_shot (s : State) (f : Power → Power) : (s.modPower f).shot = s.shot := rfl

/-! ### State.profile -/

@[simp] theorem State.profile_pending (s : State) (p : Nat) (f : Prof → Prof) : (s.profile p f).pending = s.pending := rfl
@[simp] theorem State.profile_out (s : State) (p : Nat) (f : Prof → Prof) : (s.profile p f).out = s.out := rfl
@[simp] theorem State.profile_fresh (s : State) (p : Nat) (f : Prof → Prof) : (s.profile p f).fresh = s.fresh := rfl
@[simp] theorem State.profile_now (s : State) (p : Nat) (f : Prof → Prof) : (s.profile p f).now = s.now := rfl
@[simp] theorem State.profile_reg (s : State) (p : Nat) (f : Prof → Prof) : (s.profile p f).reg = s.reg := rfl
@[simp] theorem State.profile_acts (s : State) (p : Nat) (f : Prof → Prof) : (s.profile p f).acts = s.acts := rfl
@[simp] theorem State.profile_clap (s : State) (p : Nat) (f : Prof → Prof) : (s.profile p f).clap = s.clap := rfl
@[simp] theorem State.profile_ptp (s : State) (p : Nat) (f : Prof → Prof) : (s.profile p f).ptp = s.ptp := rfl
@[simp] theorem State.profile_sched (s : State) (p : Nat) (f : Prof → Prof) : (s.profile p f).sched = s.sched := rfl
@[simp] theorem State.profile_script (s : State) (p : Nat) (f : Prof → Prof) : (s.profile p f).script = s.script := rfl
@[simp] theorem State.profile_parts (s : State) (p : Nat) (f : Prof → Prof) : (s.profile p f).parts = s.parts := rfl
@[simp] theorem State.profile_stores (s : State) (p : Nat) (f : Prof → Prof) : (s.profile p f).stores = s.stores := rfl
@[simp] theorem State.profile_sec (s : State) (p : Nat) (f : Prof → Prof) : (s.profile p f).sec = s.sec := rfl
@[simp] theorem State.profile_units (s : State) (p : Nat) (f : Prof → Prof) : (s.profile p f).units = s.units := rfl
@[simp] theorem State.profile_splicer (s : State) (p : Nat) (f : Prof → Prof) : (s.profile p f).splicer = s.splicer := rfl
@[simp] theorem State.profile_tele (s : State) (p : Nat) (f : Prof → Prof) : (s.profile p f).tele = s.tele := rfl
@[simp] theorem State.profile_d2d (s : State) (p : Nat) (f : Prof → Prof) : (s.profile p f).d2d = s.d2d := rfl
@[simp] theorem State.profile_links (s : State) (p : Nat) (f : Prof → Prof) : (s.profile p f).links = s.links := rfl
@[simp] theorem State.profile_twin (s : State) (p : Nat) (f : Prof → Prof) : (s.profile p f).twin = s.twin := rfl
@[simp] theorem State.profile_power (s : State) (p : Nat) (f : Prof → Prof) : (s.profile p f).power = s.power := rfl
@[simp] theorem State.profile_boot (s : State) (p : Nat) (f : Prof → Prof) : (s.profile p f).boot = s.boot := rfl
@[simp] theorem State.profile_reh (s : State) (p : Nat) (f : Prof → Prof) : (s.profile p f).reh = s.reh := rfl
@[simp] theorem State.profile_shot (s : State) (p : Nat) (f : Prof → Prof) : (s.profile p f).shot = s.shot := rfl

/-! ### Parts of the register file -/

@[simp] theorem State.modHdr_reg_cur (s : State) (pg : Nat) (f : Hdr → Hdr) : (s.modHdr pg f).reg.cur = s.reg.cur := rfl
@[simp] theorem State.modHdr_reg_force (s : State) (pg : Nat) (f : Hdr → Hdr) : (s.modHdr pg f).reg.force = s.reg.force := rfl
@[simp] theorem State.modHdr_reg_due (s : State) (pg : Nat) (f : Hdr → Hdr) : (s.modHdr pg f).reg.due = s.reg.due := rfl
@[simp] theorem State.modHdr_reg_held (s : State) (pg : Nat) (f : Hdr → Hdr) : (s.modHdr pg f).reg.held = s.reg.held := rfl
@[simp] theorem State.modHdr_reg_snapHeld (s : State) (pg : Nat) (f : Hdr → Hdr) : (s.modHdr pg f).reg.snapHeld = s.reg.snapHeld := rfl
@[simp] theorem State.modHdr_reg_snapTick (s : State) (pg : Nat) (f : Hdr → Hdr) : (s.modHdr pg f).reg.snapTick = s.reg.snapTick := rfl
@[simp] theorem State.wr_reg_force (s : State) (pg off : Nat) (v : Word) : (s.wr pg off v).reg.force = s.reg.force := rfl
@[simp] theorem State.wr_reg_due (s : State) (pg off : Nat) (v : Word) : (s.wr pg off v).reg.due = s.reg.due := rfl
@[simp] theorem State.wr_reg_hdr (s : State) (pg off : Nat) (v : Word) : (s.wr pg off v).reg.hdr = s.reg.hdr := rfl
@[simp] theorem State.wr_reg_held (s : State) (pg off : Nat) (v : Word) : (s.wr pg off v).reg.held = s.reg.held := rfl
@[simp] theorem State.wr_reg_snapHeld (s : State) (pg off : Nat) (v : Word) : (s.wr pg off v).reg.snapHeld = s.reg.snapHeld := rfl
@[simp] theorem State.wr_reg_snapTick (s : State) (pg off : Nat) (v : Word) : (s.wr pg off v).reg.snapTick = s.reg.snapTick := rfl
@[simp] theorem State.count_reg_force (s : State) (pg off n : Nat) : (s.count pg off n).reg.force = s.reg.force := rfl
@[simp] theorem State.count_reg_due (s : State) (pg off n : Nat) : (s.count pg off n).reg.due = s.reg.due := rfl
@[simp] theorem State.count_reg_hdr (s : State) (pg off n : Nat) : (s.count pg off n).reg.hdr = s.reg.hdr := rfl
@[simp] theorem State.count_reg_held (s : State) (pg off n : Nat) : (s.count pg off n).reg.held = s.reg.held := rfl
@[simp] theorem State.count_reg_snapHeld (s : State) (pg off n : Nat) : (s.count pg off n).reg.snapHeld = s.reg.snapHeld := rfl
@[simp] theorem State.count_reg_snapTick (s : State) (pg off n : Nat) : (s.count pg off n).reg.snapTick = s.reg.snapTick := rfl
@[simp] theorem State.wrForce_reg_cur (s : State) (pg off : Nat) (v : Word) : (s.wrForce pg off v).reg.cur = s.reg.cur := rfl
@[simp] theorem State.wrForce_reg_due (s : State) (pg off : Nat) (v : Word) : (s.wrForce pg off v).reg.due = s.reg.due := rfl
@[simp] theorem State.wrForce_reg_hdr (s : State) (pg off : Nat) (v : Word) : (s.wrForce pg off v).reg.hdr = s.reg.hdr := rfl
@[simp] theorem State.wrForce_reg_held (s : State) (pg off : Nat) (v : Word) : (s.wrForce pg off v).reg.held = s.reg.held := rfl
@[simp] theorem State.wrForce_reg_snapHeld (s : State) (pg off : Nat) (v : Word) : (s.wrForce pg off v).reg.snapHeld = s.reg.snapHeld := rfl
@[simp] theorem State.wrForce_reg_snapTick (s : State) (pg off : Nat) (v : Word) : (s.wrForce pg off v).reg.snapTick = s.reg.snapTick := rfl
@[simp] theorem State.takeForce_reg_cur (s : State) (key : Nat) : (s.takeForce key).reg.cur = s.reg.cur := rfl
@[simp] theorem State.takeForce_reg_due (s : State) (key : Nat) : (s.takeForce key).reg.due = s.reg.due := rfl
@[simp] theorem State.takeForce_reg_hdr (s : State) (key : Nat) : (s.takeForce key).reg.hdr = s.reg.hdr := rfl
@[simp] theorem State.takeForce_reg_held (s : State) (key : Nat) : (s.takeForce key).reg.held = s.reg.held := rfl
@[simp] theorem State.takeForce_reg_snapHeld (s : State) (key : Nat) : (s.takeForce key).reg.snapHeld = s.reg.snapHeld := rfl
@[simp] theorem State.takeForce_reg_snapTick (s : State) (key : Nat) : (s.takeForce key).reg.snapTick = s.reg.snapTick := rfl

@[simp] theorem State.modCtl_stores_main (s : State) (m : Nat) (f : Ctl → Ctl) : (s.modCtl m f).stores.main = s.stores.main := rfl
@[simp] theorem State.modCtl_stores_park (s : State) (m : Nat) (f : Ctl → Ctl) : (s.modCtl m f).stores.park = s.stores.park := rfl
@[simp] theorem State.modCtl_stores_badMain (s : State) (m : Nat) (f : Ctl → Ctl) : (s.modCtl m f).stores.badMain = s.stores.badMain := rfl
@[simp] theorem State.modCtl_stores_badPark (s : State) (m : Nat) (f : Ctl → Ctl) : (s.modCtl m f).stores.badPark = s.stores.badPark := rfl
@[simp] theorem State.modCtl_stores_scrubs (s : State) (m : Nat) (f : Ctl → Ctl) : (s.modCtl m f).stores.scrubs = s.stores.scrubs := rfl
@[simp] theorem State.modCtl_stores_parkUse (s : State) (m : Nat) (f : Ctl → Ctl) : (s.modCtl m f).stores.parkUse = s.stores.parkUse := rfl

end Sys2Proof.Machine
end

