-- ==== Sys2Proof/Laws/Events.lean ====
section
/-! SUPPORT. Registers, headers and events: what a write, a count and a raised event change, and what they leave alone. -/
namespace Sys2Proof.Machine

/-! ### Registers -/

@[simp] theorem State.rd_wr_same (s : State) (pg off : Nat) (v : Word) : (s.wr pg off v).rd pg off = v :=
  mget_mset_same _ _ _ _

theorem State.rd_wr_ne (s : State) (pg off : Nat) (v : Word) {pg' off' : Nat} (h : rk pg' off' ≠ rk pg off) :
    (s.wr pg off v).rd pg' off' = s.rd pg' off' :=
  mget_mset_ne _ _ _ h

@[simp] theorem State.rd_count_same (s : State) (pg off n : Nat) : (s.count pg off n).rd pg off = satAdd (s.rd pg off) n :=
  mget_mset_same _ _ _ _

theorem State.rd_count_ne (s : State) (pg off n : Nat) {pg' off' : Nat} (h : rk pg' off' ≠ rk pg off) :
    (s.count pg off n).rd pg' off' = s.rd pg' off' :=
  mget_mset_ne _ _ _ h

@[simp] theorem State.rd_modHdr (s : State) (pg : Nat) (f : Hdr → Hdr) (pg' off : Nat) : (s.modHdr pg f).rd pg' off = s.rd pg' off := rfl
@[simp] theorem State.fo_modHdr (s : State) (pg : Nat) (f : Hdr → Hdr) (pg' off : Nat) : (s.modHdr pg f).fo pg' off = s.fo pg' off := rfl
@[simp] theorem State.fo_wr (s : State) (pg off : Nat) (v : Word) (pg' off' : Nat) : (s.wr pg off v).fo pg' off' = s.fo pg' off' := rfl
@[simp] theorem State.fo_count (s : State) (pg off n pg' off' : Nat) : (s.count pg off n).fo pg' off' = s.fo pg' off' := rfl
@[simp] theorem State.hdr_wr (s : State) (pg off : Nat) (v : Word) (pg' : Nat) : (s.wr pg off v).hdr pg' = s.hdr pg' := rfl
@[simp] theorem State.hdr_count (s : State) (pg off n pg' : Nat) : (s.count pg off n).hdr pg' = s.hdr pg' := rfl

@[simp] theorem State.hdr_modHdr_same (s : State) (pg : Nat) (f : Hdr → Hdr) : (s.modHdr pg f).hdr pg = f (s.hdr pg) :=
  mget_mmod_same _ _ _ _

theorem State.hdr_modHdr_ne (s : State) (pg : Nat) (f : Hdr → Hdr) {pg' : Nat} (h : pg' ≠ pg) : (s.modHdr pg f).hdr pg' = s.hdr pg' :=
  mget_mmod_ne _ _ _ h

@[simp] theorem State.begin_hdr (s : State) (pg : Nat) : s.begin.hdr pg = s.hdr pg := rfl
@[simp] theorem State.begin_rd (s : State) (pg off : Nat) : s.begin.rd pg off = s.rd pg off := rfl
@[simp] theorem State.begin_fo (s : State) (pg off : Nat) : s.begin.fo pg off = s.fo pg off := rfl
@[simp] theorem State.at_hdr (s : State) (t pg : Nat) : (s.at t).hdr pg = s.hdr pg := rfl
@[simp] theorem State.at_rd (s : State) (t pg off : Nat) : (s.at t).rd pg off = s.rd pg off := rfl

/-! ### Parts of the state kept by page or number -/

@[simp] theorem State.part_modPart_same (s : State) (p : Nat) (f : Part → Part) : (s.modPart p f).part p = f (s.part p) :=
  mget_mmod_same _ _ _ _
theorem State.part_modPart_ne (s : State) (p : Nat) (f : Part → Part) {j : Nat} (h : j ≠ p) : (s.modPart p f).part j = s.part j :=
  mget_mmod_ne _ _ _ h
@[simp] theorem State.ctl_modCtl_same (s : State) (m : Nat) (f : Ctl → Ctl) : (s.modCtl m f).ctl m = f (s.ctl m) :=
  mget_mmod_same _ _ _ _
@[simp] theorem State.port_modPort_same (s : State) (q : Nat) (f : Port → Port) : (s.modPort q f).port q = f (s.port q) :=
  mget_mmod_same _ _ _ _
theorem State.port_modPort_ne (s : State) (q : Nat) (f : Port → Port) {j : Nat} (h : j ≠ q) : (s.modPort q f).port j = s.port j :=
  mget_mmod_ne _ _ _ h
@[simp] theorem State.chan_modChan_same (s : State) (c : Nat) (f : Channel → Channel) : (s.modChan c f).chan c = f (s.chan c) :=
  mget_mmod_same _ _ _ _
@[simp] theorem State.tctx_modTctx_same (s : State) (c : Nat) (f : TeleCtx → TeleCtx) : (s.modTctx c f).tctx c = f (s.tctx c) :=
  mget_mmod_same _ _ _ _
@[simp] theorem State.unit_modUnit_same (s : State) (pg : Nat) (f : Unit' → Unit') : (s.modUnit pg f).unit pg = f (s.unit pg) :=
  mget_mmod_same _ _ _ _
@[simp] theorem State.desc_modDesc_same (s : State) (i : Nat) (f : Desc → Desc) : (s.modDesc i f).desc i = f (s.desc i) :=
  mget_mmod_same _ _ _ _

/-! ### Setting a bit -/

theorem bit_setField (w : Word) (lo n v j : Nat) (hj : j < 32) :
    bit (setField w lo n v) j = if lo ≤ j ∧ j < lo + n then v.testBit (j - lo) else bit w j := by
  have hm : ((2 ^ n - 1) <<< lo % 2 ^ 32) < 2 ^ 32 := Nat.mod_lt _ (by decide)
  have hs : 0xFFFFFFFF - (2 ^ n - 1) <<< lo % 2 ^ 32 = 2 ^ 32 - ((2 ^ n - 1) <<< lo % 2 ^ 32 + 1) := by omega
  unfold bit setField
  simp only [BitVec.toNat_ofNat, Nat.testBit_mod_two_pow, Nat.testBit_or, Nat.testBit_and, hs,
    Nat.testBit_two_pow_sub_succ hm, Nat.testBit_shiftLeft, Nat.testBit_two_pow_sub_one, hj, decide_true, Bool.true_and]
  by_cases h1 : lo ≤ j
  · have h3 : j < lo + n ↔ j - lo < n := by omega
    by_cases h2 : j - lo < n <;> simp [h1, h2, h3]
  · simp [h1]

@[simp] theorem bit_setBit_same (w : Word) (i : Nat) (b : Bool) (h : i < 32) : bit (setBit w i b) i = b := by
  unfold setBit
  rw [bit_setField _ _ _ _ _ h]
  cases b <;> simp

theorem bit_setBit_ne (w : Word) {i j : Nat} (b : Bool) (hj : j < 32) (h : j ≠ i) : bit (setBit w i b) j = bit w j := by
  unfold setBit
  rw [bit_setField _ _ _ _ _ hj, if_neg (by omega)]

end Sys2Proof.Machine
end

