-- ==== Sys2Proof/Laws/Raise.lean ====
section
/-! SUPPORT. What raising an event, latching a fault and a grave diagnosis can do: the fields they leave alone, the
registers they count into (DLY_LOST and MSI_SENT), and the event bits they set. -/
namespace Sys2Proof.Machine

/-! ### State.sendVec -/

@[simp] theorem State.sendVec_pending (s : State) (v : Nat) : (s.sendVec v).pending = s.pending := by
  rfl
@[simp] theorem State.sendVec_fresh (s : State) (v : Nat) : (s.sendVec v).fresh = s.fresh := by
  rfl
@[simp] theorem State.sendVec_now (s : State) (v : Nat) : (s.sendVec v).now = s.now := by
  rfl
@[simp] theorem State.sendVec_acts (s : State) (v : Nat) : (s.sendVec v).acts = s.acts := by
  rfl
@[simp] theorem State.sendVec_clap (s : State) (v : Nat) : (s.sendVec v).clap = s.clap := by
  rfl
@[simp] theorem State.sendVec_ptp (s : State) (v : Nat) : (s.sendVec v).ptp = s.ptp := by
  rfl
@[simp] theorem State.sendVec_sched (s : State) (v : Nat) : (s.sendVec v).sched = s.sched := by
  rfl
@[simp] theorem State.sendVec_script (s : State) (v : Nat) : (s.sendVec v).script = s.script := by
  rfl
@[simp] theorem State.sendVec_parts (s : State) (v : Nat) : (s.sendVec v).parts = s.parts := by
  rfl
@[simp] theorem State.sendVec_stores (s : State) (v : Nat) : (s.sendVec v).stores = s.stores := by
  rfl
@[simp] theorem State.sendVec_sec (s : State) (v : Nat) : (s.sendVec v).sec = s.sec := by
  rfl
@[simp] theorem State.sendVec_units (s : State) (v : Nat) : (s.sendVec v).units = s.units := by
  rfl
@[simp] theorem State.sendVec_splicer (s : State) (v : Nat) : (s.sendVec v).splicer = s.splicer := by
  rfl
@[simp] theorem State.sendVec_tele (s : State) (v : Nat) : (s.sendVec v).tele = s.tele := by
  rfl
@[simp] theorem State.sendVec_links (s : State) (v : Nat) : (s.sendVec v).links = s.links := by
  rfl
@[simp] theorem State.sendVec_twin (s : State) (v : Nat) : (s.sendVec v).twin = s.twin := by
  rfl
@[simp] theorem State.sendVec_power (s : State) (v : Nat) : (s.sendVec v).power = s.power := by
  rfl
@[simp] theorem State.sendVec_boot (s : State) (v : Nat) : (s.sendVec v).boot = s.boot := by
  rfl
@[simp] theorem State.sendVec_reh (s : State) (v : Nat) : (s.sendVec v).reh = s.reh := by
  rfl
@[simp] theorem State.sendVec_dly (s : State) (v : Nat) : (s.sendVec v).dly = s.dly := by
  rfl
@[simp] theorem State.sendVec_shot (s : State) (v : Nat) : (s.sendVec v).shot = s.shot := by
  rfl

/-! ### State.latchVec -/

@[simp] theorem State.latchVec_pending (s : State) (v : Nat) : (s.latchVec v).pending = s.pending := by
  unfold State.latchVec; dsimp only; split <;> rfl
@[simp] theorem State.latchVec_fresh (s : State) (v : Nat) : (s.latchVec v).fresh = s.fresh := by
  unfold State.latchVec; dsimp only; split <;> rfl
@[simp] theorem State.latchVec_now (s : State) (v : Nat) : (s.latchVec v).now = s.now := by
  unfold State.latchVec; dsimp only; split <;> rfl
@[simp] theorem State.latchVec_acts (s : State) (v : Nat) : (s.latchVec v).acts = s.acts := by
  unfold State.latchVec; dsimp only; split <;> rfl
@[simp] theorem State.latchVec_clap (s : State) (v : Nat) : (s.latchVec v).clap = s.clap := by
  unfold State.latchVec; dsimp only; split <;> rfl
@[simp] theorem State.latchVec_ptp (s : State) (v : Nat) : (s.latchVec v).ptp = s.ptp := by
  unfold State.latchVec; dsimp only; split <;> rfl
@[simp] theorem State.latchVec_sched (s : State) (v : Nat) : (s.latchVec v).sched = s.sched := by
  unfold State.latchVec; dsimp only; split <;> rfl
@[simp] theorem State.latchVec_script (s : State) (v : Nat) : (s.latchVec v).script = s.script := by
  unfold State.latchVec; dsimp only; split <;> rfl
@[simp] theorem State.latchVec_parts (s : State) (v : Nat) : (s.latchVec v).parts = s.parts := by
  unfold State.latchVec; dsimp only; split <;> rfl
@[simp] theorem State.latchVec_stores (s : State) (v : Nat) : (s.latchVec v).stores = s.stores := by
  unfold State.latchVec; dsimp only; split <;> rfl
@[simp] theorem State.latchVec_sec (s : State) (v : Nat) : (s.latchVec v).sec = s.sec := by
  unfold State.latchVec; dsimp only; split <;> rfl
@[simp] theorem State.latchVec_units (s : State) (v : Nat) : (s.latchVec v).units = s.units := by
  unfold State.latchVec; dsimp only; split <;> rfl
@[simp] theorem State.latchVec_splicer (s : State) (v : Nat) : (s.latchVec v).splicer = s.splicer := by
  unfold State.latchVec; dsimp only; split <;> rfl
@[simp] theorem State.latchVec_tele (s : State) (v : Nat) : (s.latchVec v).tele = s.tele := by
  unfold State.latchVec; dsimp only; split <;> rfl
@[simp] theorem State.latchVec_links (s : State) (v : Nat) : (s.latchVec v).links = s.links := by
  unfold State.latchVec; dsimp only; split <;> rfl
@[simp] theorem State.latchVec_twin (s : State) (v : Nat) : (s.latchVec v).twin = s.twin := by
  unfold State.latchVec; dsimp only; split <;> rfl
@[simp] theorem State.latchVec_power (s : State) (v : Nat) : (s.latchVec v).power = s.power := by
  unfold State.latchVec; dsimp only; split <;> rfl
@[simp] theorem State.latchVec_boot (s : State) (v : Nat) : (s.latchVec v).boot = s.boot := by
  unfold State.latchVec; dsimp only; split <;> rfl
@[simp] theorem State.latchVec_reh (s : State) (v : Nat) : (s.latchVec v).reh = s.reh := by
  unfold State.latchVec; dsimp only; split <;> rfl
@[simp] theorem State.latchVec_dly (s : State) (v : Nat) : (s.latchVec v).dly = s.dly := by
  unfold State.latchVec; dsimp only; split <;> rfl
@[simp] theorem State.latchVec_shot (s : State) (v : Nat) : (s.latchVec v).shot = s.shot := by
  unfold State.latchVec; dsimp only; split <;> rfl

/-! ### State.note -/

@[simp] theorem State.note_pending (s : State) (d : Daily) : (s.note d).pending = s.pending := by
  unfold State.note; dsimp only; (repeat' split) <;> first | rfl | simp only [State.latchVec_pending, State.modHdr_pending]
@[simp] theorem State.note_fresh (s : State) (d : Daily) : (s.note d).fresh = s.fresh := by
  unfold State.note; dsimp only; (repeat' split) <;> first | rfl | simp only [State.latchVec_fresh, State.modHdr_fresh]
@[simp] theorem State.note_now (s : State) (d : Daily) : (s.note d).now = s.now := by
  unfold State.note; dsimp only; (repeat' split) <;> first | rfl | simp only [State.latchVec_now, State.modHdr_now]
@[simp] theorem State.note_acts (s : State) (d : Daily) : (s.note d).acts = s.acts := by
  unfold State.note; dsimp only; (repeat' split) <;> first | rfl | simp only [State.latchVec_acts, State.modHdr_acts]
@[simp] theorem State.note_clap (s : State) (d : Daily) : (s.note d).clap = s.clap := by
  unfold State.note; dsimp only; (repeat' split) <;> first | rfl | simp only [State.latchVec_clap, State.modHdr_clap]
@[simp] theorem State.note_ptp (s : State) (d : Daily) : (s.note d).ptp = s.ptp := by
  unfold State.note; dsimp only; (repeat' split) <;> first | rfl | simp only [State.latchVec_ptp, State.modHdr_ptp]
@[simp] theorem State.note_sched (s : State) (d : Daily) : (s.note d).sched = s.sched := by
  unfold State.note; dsimp only; (repeat' split) <;> first | rfl | simp only [State.latchVec_sched, State.modHdr_sched]
@[simp] theorem State.note_script (s : State) (d : Daily) : (s.note d).script = s.script := by
  unfold State.note; dsimp only; (repeat' split) <;> first | rfl | simp only [State.latchVec_script, State.modHdr_script]
@[simp] theorem State.note_parts (s : State) (d : Daily) : (s.note d).parts = s.parts := by
  unfold State.note; dsimp only; (repeat' split) <;> first | rfl | simp only [State.latchVec_parts, State.modHdr_parts]
@[simp] theorem State.note_stores (s : State) (d : Daily) : (s.note d).stores = s.stores := by
  unfold State.note; dsimp only; (repeat' split) <;> first | rfl | simp only [State.latchVec_stores, State.modHdr_stores]
@[simp] theorem State.note_sec (s : State) (d : Daily) : (s.note d).sec = s.sec := by
  unfold State.note; dsimp only; (repeat' split) <;> first | rfl | simp only [State.latchVec_sec, State.modHdr_sec]
@[simp] theorem State.note_units (s : State) (d : Daily) : (s.note d).units = s.units := by
  unfold State.note; dsimp only; (repeat' split) <;> first | rfl | simp only [State.latchVec_units, State.modHdr_units]
@[simp] theorem State.note_splicer (s : State) (d : Daily) : (s.note d).splicer = s.splicer := by
  unfold State.note; dsimp only; (repeat' split) <;> first | rfl | simp only [State.latchVec_splicer, State.modHdr_splicer]
@[simp] theorem State.note_tele (s : State) (d : Daily) : (s.note d).tele = s.tele := by
  unfold State.note; dsimp only; (repeat' split) <;> first | rfl | simp only [State.latchVec_tele, State.modHdr_tele]
@[simp] theorem State.note_links (s : State) (d : Daily) : (s.note d).links = s.links := by
  unfold State.note; dsimp only; (repeat' split) <;> first | rfl | simp only [State.latchVec_links, State.modHdr_links]
@[simp] theorem State.note_twin (s : State) (d : Daily) : (s.note d).twin = s.twin := by
  unfold State.note; dsimp only; (repeat' split) <;> first | rfl | simp only [State.latchVec_twin, State.modHdr_twin]
@[simp] theorem State.note_power (s : State) (d : Daily) : (s.note d).power = s.power := by
  unfold State.note; dsimp only; (repeat' split) <;> first | rfl | simp only [State.latchVec_power, State.modHdr_power]
@[simp] theorem State.note_boot (s : State) (d : Daily) : (s.note d).boot = s.boot := by
  unfold State.note; dsimp only; (repeat' split) <;> first | rfl | simp only [State.latchVec_boot, State.modHdr_boot]
@[simp] theorem State.note_reh (s : State) (d : Daily) : (s.note d).reh = s.reh := by
  unfold State.note; dsimp only; (repeat' split) <;> first | rfl | simp only [State.latchVec_reh, State.modHdr_reh]
@[simp] theorem State.note_shot (s : State) (d : Daily) : (s.note d).shot = s.shot := by
  unfold State.note; dsimp only; (repeat' split) <;> first | rfl | simp only [State.latchVec_shot, State.modHdr_shot]

/-! ### State.raiseWith -/

@[simp] theorem State.raiseWith_pending (s : State) (pg b : Nat) (r l : Bool) : (s.raiseWith pg b r l).pending = s.pending := by
  unfold State.raiseWith; dsimp only; (repeat' split) <;> simp
@[simp] theorem State.raiseWith_fresh (s : State) (pg b : Nat) (r l : Bool) : (s.raiseWith pg b r l).fresh = s.fresh := by
  unfold State.raiseWith; dsimp only; (repeat' split) <;> simp
@[simp] theorem State.raiseWith_now (s : State) (pg b : Nat) (r l : Bool) : (s.raiseWith pg b r l).now = s.now := by
  unfold State.raiseWith; dsimp only; (repeat' split) <;> simp
@[simp] theorem State.raiseWith_acts (s : State) (pg b : Nat) (r l : Bool) : (s.raiseWith pg b r l).acts = s.acts := by
  unfold State.raiseWith; dsimp only; (repeat' split) <;> simp
@[simp] theorem State.raiseWith_clap (s : State) (pg b : Nat) (r l : Bool) : (s.raiseWith pg b r l).clap = s.clap := by
  unfold State.raiseWith; dsimp only; (repeat' split) <;> simp
@[simp] theorem State.raiseWith_ptp (s : State) (pg b : Nat) (r l : Bool) : (s.raiseWith pg b r l).ptp = s.ptp := by
  unfold State.raiseWith; dsimp only; (repeat' split) <;> simp
@[simp] theorem State.raiseWith_sched (s : State) (pg b : Nat) (r l : Bool) : (s.raiseWith pg b r l).sched = s.sched := by
  unfold State.raiseWith; dsimp only; (repeat' split) <;> simp
@[simp] theorem State.raiseWith_script (s : State) (pg b : Nat) (r l : Bool) : (s.raiseWith pg b r l).script = s.script := by
  unfold State.raiseWith; dsimp only; (repeat' split) <;> simp
@[simp] theorem State.raiseWith_parts (s : State) (pg b : Nat) (r l : Bool) : (s.raiseWith pg b r l).parts = s.parts := by
  unfold State.raiseWith; dsimp only; (repeat' split) <;> simp
@[simp] theorem State.raiseWith_stores (s : State) (pg b : Nat) (r l : Bool) : (s.raiseWith pg b r l).stores = s.stores := by
  unfold State.raiseWith; dsimp only; (repeat' split) <;> simp
@[simp] theorem State.raiseWith_sec (s : State) (pg b : Nat) (r l : Bool) : (s.raiseWith pg b r l).sec = s.sec := by
  unfold State.raiseWith; dsimp only; (repeat' split) <;> simp
@[simp] theorem State.raiseWith_units (s : State) (pg b : Nat) (r l : Bool) : (s.raiseWith pg b r l).units = s.units := by
  unfold State.raiseWith; dsimp only; (repeat' split) <;> simp
@[simp] theorem State.raiseWith_splicer (s : State) (pg b : Nat) (r l : Bool) : (s.raiseWith pg b r l).splicer = s.splicer := by
  unfold State.raiseWith; dsimp only; (repeat' split) <;> simp
@[simp] theorem State.raiseWith_tele (s : State) (pg b : Nat) (r l : Bool) : (s.raiseWith pg b r l).tele = s.tele := by
  unfold State.raiseWith; dsimp only; (repeat' split) <;> simp
@[simp] theorem State.raiseWith_links (s : State) (pg b : Nat) (r l : Bool) : (s.raiseWith pg b r l).links = s.links := by
  unfold State.raiseWith; dsimp only; (repeat' split) <;> simp
@[simp] theorem State.raiseWith_twin (s : State) (pg b : Nat) (r l : Bool) : (s.raiseWith pg b r l).twin = s.twin := by
  unfold State.raiseWith; dsimp only; (repeat' split) <;> simp
@[simp] theorem State.raiseWith_power (s : State) (pg b : Nat) (r l : Bool) : (s.raiseWith pg b r l).power = s.power := by
  unfold State.raiseWith; dsimp only; (repeat' split) <;> simp
@[simp] theorem State.raiseWith_boot (s : State) (pg b : Nat) (r l : Bool) : (s.raiseWith pg b r l).boot = s.boot := by
  unfold State.raiseWith; dsimp only; (repeat' split) <;> simp
@[simp] theorem State.raiseWith_reh (s : State) (pg b : Nat) (r l : Bool) : (s.raiseWith pg b r l).reh = s.reh := by
  unfold State.raiseWith; dsimp only; (repeat' split) <;> simp
@[simp] theorem State.raiseWith_shot (s : State) (pg b : Nat) (r l : Bool) : (s.raiseWith pg b r l).shot = s.shot := by
  unfold State.raiseWith; dsimp only; (repeat' split) <;> simp

/-! ### State.raise -/

@[simp] theorem State.raise_pending (s : State) (pg b : Nat) : (s.raise pg b).pending = s.pending := by
  exact s.raiseWith_pending pg b false false
@[simp] theorem State.raise_fresh (s : State) (pg b : Nat) : (s.raise pg b).fresh = s.fresh := by
  exact s.raiseWith_fresh pg b false false
@[simp] theorem State.raise_now (s : State) (pg b : Nat) : (s.raise pg b).now = s.now := by
  exact s.raiseWith_now pg b false false
@[simp] theorem State.raise_acts (s : State) (pg b : Nat) : (s.raise pg b).acts = s.acts := by
  exact s.raiseWith_acts pg b false false
@[simp] theorem State.raise_clap (s : State) (pg b : Nat) : (s.raise pg b).clap = s.clap := by
  exact s.raiseWith_clap pg b false false
@[simp] theorem State.raise_ptp (s : State) (pg b : Nat) : (s.raise pg b).ptp = s.ptp := by
  exact s.raiseWith_ptp pg b false false
@[simp] theorem State.raise_sched (s : State) (pg b : Nat) : (s.raise pg b).sched = s.sched := by
  exact s.raiseWith_sched pg b false false
@[simp] theorem State.raise_script (s : State) (pg b : Nat) : (s.raise pg b).script = s.script := by
  exact s.raiseWith_script pg b false false
@[simp] theorem State.raise_parts (s : State) (pg b : Nat) : (s.raise pg b).parts = s.parts := by
  exact s.raiseWith_parts pg b false false
@[simp] theorem State.raise_stores (s : State) (pg b : Nat) : (s.raise pg b).stores = s.stores := by
  exact s.raiseWith_stores pg b false false
@[simp] theorem State.raise_sec (s : State) (pg b : Nat) : (s.raise pg b).sec = s.sec := by
  exact s.raiseWith_sec pg b false false
@[simp] theorem State.raise_units (s : State) (pg b : Nat) : (s.raise pg b).units = s.units := by
  exact s.raiseWith_units pg b false false
@[simp] theorem State.raise_splicer (s : State) (pg b : Nat) : (s.raise pg b).splicer = s.splicer := by
  exact s.raiseWith_splicer pg b false false
@[simp] theorem State.raise_tele (s : State) (pg b : Nat) : (s.raise pg b).tele = s.tele := by
  exact s.raiseWith_tele pg b false false
@[simp] theorem State.raise_links (s : State) (pg b : Nat) : (s.raise pg b).links = s.links := by
  exact s.raiseWith_links pg b false false
@[simp] theorem State.raise_twin (s : State) (pg b : Nat) : (s.raise pg b).twin = s.twin := by
  exact s.raiseWith_twin pg b false false
@[simp] theorem State.raise_power (s : State) (pg b : Nat) : (s.raise pg b).power = s.power := by
  exact s.raiseWith_power pg b false false
@[simp] theorem State.raise_boot (s : State) (pg b : Nat) : (s.raise pg b).boot = s.boot := by
  exact s.raiseWith_boot pg b false false
@[simp] theorem State.raise_reh (s : State) (pg b : Nat) : (s.raise pg b).reh = s.reh := by
  exact s.raiseWith_reh pg b false false
@[simp] theorem State.raise_shot (s : State) (pg b : Nat) : (s.raise pg b).shot = s.shot := by
  exact s.raiseWith_shot pg b false false

/-! ### State.raiseIf -/

@[simp] theorem State.raiseIf_pending (s : State) (c : Bool) (pg b : Nat) : (s.raiseIf c pg b).pending = s.pending := by
  unfold State.raiseIf; split <;> simp
@[simp] theorem State.raiseIf_fresh (s : State) (c : Bool) (pg b : Nat) : (s.raiseIf c pg b).fresh = s.fresh := by
  unfold State.raiseIf; split <;> simp
@[simp] theorem State.raiseIf_now (s : State) (c : Bool) (pg b : Nat) : (s.raiseIf c pg b).now = s.now := by
  unfold State.raiseIf; split <;> simp
@[simp] theorem State.raiseIf_acts (s : State) (c : Bool) (pg b : Nat) : (s.raiseIf c pg b).acts = s.acts := by
  unfold State.raiseIf; split <;> simp
@[simp] theorem State.raiseIf_clap (s : State) (c : Bool) (pg b : Nat) : (s.raiseIf c pg b).clap = s.clap := by
  unfold State.raiseIf; split <;> simp
@[simp] theorem State.raiseIf_ptp (s : State) (c : Bool) (pg b : Nat) : (s.raiseIf c pg b).ptp = s.ptp := by
  unfold State.raiseIf; split <;> simp
@[simp] theorem State.raiseIf_sched (s : State) (c : Bool) (pg b : Nat) : (s.raiseIf c pg b).sched = s.sched := by
  unfold State.raiseIf; split <;> simp
@[simp] theorem State.raiseIf_script (s : State) (c : Bool) (pg b : Nat) : (s.raiseIf c pg b).script = s.script := by
  unfold State.raiseIf; split <;> simp
@[simp] theorem State.raiseIf_parts (s : State) (c : Bool) (pg b : Nat) : (s.raiseIf c pg b).parts = s.parts := by
  unfold State.raiseIf; split <;> simp
@[simp] theorem State.raiseIf_stores (s : State) (c : Bool) (pg b : Nat) : (s.raiseIf c pg b).stores = s.stores := by
  unfold State.raiseIf; split <;> simp
@[simp] theorem State.raiseIf_sec (s : State) (c : Bool) (pg b : Nat) : (s.raiseIf c pg b).sec = s.sec := by
  unfold State.raiseIf; split <;> simp
@[simp] theorem State.raiseIf_units (s : State) (c : Bool) (pg b : Nat) : (s.raiseIf c pg b).units = s.units := by
  unfold State.raiseIf; split <;> simp
@[simp] theorem State.raiseIf_splicer (s : State) (c : Bool) (pg b : Nat) : (s.raiseIf c pg b).splicer = s.splicer := by
  unfold State.raiseIf; split <;> simp
@[simp] theorem State.raiseIf_tele (s : State) (c : Bool) (pg b : Nat) : (s.raiseIf c pg b).tele = s.tele := by
  unfold State.raiseIf; split <;> simp
@[simp] theorem State.raiseIf_links (s : State) (c : Bool) (pg b : Nat) : (s.raiseIf c pg b).links = s.links := by
  unfold State.raiseIf; split <;> simp
@[simp] theorem State.raiseIf_twin (s : State) (c : Bool) (pg b : Nat) : (s.raiseIf c pg b).twin = s.twin := by
  unfold State.raiseIf; split <;> simp
@[simp] theorem State.raiseIf_power (s : State) (c : Bool) (pg b : Nat) : (s.raiseIf c pg b).power = s.power := by
  unfold State.raiseIf; split <;> simp
@[simp] theorem State.raiseIf_boot (s : State) (c : Bool) (pg b : Nat) : (s.raiseIf c pg b).boot = s.boot := by
  unfold State.raiseIf; split <;> simp
@[simp] theorem State.raiseIf_reh (s : State) (c : Bool) (pg b : Nat) : (s.raiseIf c pg b).reh = s.reh := by
  unfold State.raiseIf; split <;> simp
@[simp] theorem State.raiseIf_shot (s : State) (c : Bool) (pg b : Nat) : (s.raiseIf c pg b).shot = s.shot := by
  unfold State.raiseIf; split <;> simp

/-! ### State.fault -/

@[simp] theorem State.fault_pending (s : State) (pg b addr : Nat) (info : Word) (reh : Bool) : (s.fault pg b addr info reh).pending = s.pending := by
  unfold State.fault; dsimp only; (repeat' split) <;> simp
@[simp] theorem State.fault_fresh (s : State) (pg b addr : Nat) (info : Word) (reh : Bool) : (s.fault pg b addr info reh).fresh = s.fresh := by
  unfold State.fault; dsimp only; (repeat' split) <;> simp
@[simp] theorem State.fault_now (s : State) (pg b addr : Nat) (info : Word) (reh : Bool) : (s.fault pg b addr info reh).now = s.now := by
  unfold State.fault; dsimp only; (repeat' split) <;> simp
@[simp] theorem State.fault_acts (s : State) (pg b addr : Nat) (info : Word) (reh : Bool) : (s.fault pg b addr info reh).acts = s.acts := by
  unfold State.fault; dsimp only; (repeat' split) <;> simp
@[simp] theorem State.fault_clap (s : State) (pg b addr : Nat) (info : Word) (reh : Bool) : (s.fault pg b addr info reh).clap = s.clap := by
  unfold State.fault; dsimp only; (repeat' split) <;> simp
@[simp] theorem State.fault_ptp (s : State) (pg b addr : Nat) (info : Word) (reh : Bool) : (s.fault pg b addr info reh).ptp = s.ptp := by
  unfold State.fault; dsimp only; (repeat' split) <;> simp
@[simp] theorem State.fault_sched (s : State) (pg b addr : Nat) (info : Word) (reh : Bool) : (s.fault pg b addr info reh).sched = s.sched := by
  unfold State.fault; dsimp only; (repeat' split) <;> simp
@[simp] theorem State.fault_script (s : State) (pg b addr : Nat) (info : Word) (reh : Bool) : (s.fault pg b addr info reh).script = s.script := by
  unfold State.fault; dsimp only; (repeat' split) <;> simp
@[simp] theorem State.fault_parts (s : State) (pg b addr : Nat) (info : Word) (reh : Bool) : (s.fault pg b addr info reh).parts = s.parts := by
  unfold State.fault; dsimp only; (repeat' split) <;> simp
@[simp] theorem State.fault_stores (s : State) (pg b addr : Nat) (info : Word) (reh : Bool) : (s.fault pg b addr info reh).stores = s.stores := by
  unfold State.fault; dsimp only; (repeat' split) <;> simp
@[simp] theorem State.fault_sec (s : State) (pg b addr : Nat) (info : Word) (reh : Bool) : (s.fault pg b addr info reh).sec = s.sec := by
  unfold State.fault; dsimp only; (repeat' split) <;> simp
@[simp] theorem State.fault_units (s : State) (pg b addr : Nat) (info : Word) (reh : Bool) : (s.fault pg b addr info reh).units = s.units := by
  unfold State.fault; dsimp only; (repeat' split) <;> simp
@[simp] theorem State.fault_splicer (s : State) (pg b addr : Nat) (info : Word) (reh : Bool) : (s.fault pg b addr info reh).splicer = s.splicer := by
  unfold State.fault; dsimp only; (repeat' split) <;> simp
@[simp] theorem State.fault_tele (s : State) (pg b addr : Nat) (info : Word) (reh : Bool) : (s.fault pg b addr info reh).tele = s.tele := by
  unfold State.fault; dsimp only; (repeat' split) <;> simp
@[simp] theorem State.fault_links (s : State) (pg b addr : Nat) (info : Word) (reh : Bool) : (s.fault pg b addr info reh).links = s.links := by
  unfold State.fault; dsimp only; (repeat' split) <;> simp
@[simp] theorem State.fault_twin (s : State) (pg b addr : Nat) (info : Word) (reh : Bool) : (s.fault pg b addr info reh).twin = s.twin := by
  unfold State.fault; dsimp only; (repeat' split) <;> simp
@[simp] theorem State.fault_power (s : State) (pg b addr : Nat) (info : Word) (reh : Bool) : (s.fault pg b addr info reh).power = s.power := by
  unfold State.fault; dsimp only; (repeat' split) <;> simp
@[simp] theorem State.fault_boot (s : State) (pg b addr : Nat) (info : Word) (reh : Bool) : (s.fault pg b addr info reh).boot = s.boot := by
  unfold State.fault; dsimp only; (repeat' split) <;> simp
@[simp] theorem State.fault_reh (s : State) (pg b addr : Nat) (info : Word) (reh : Bool) : (s.fault pg b addr info reh).reh = s.reh := by
  unfold State.fault; dsimp only; (repeat' split) <;> simp
@[simp] theorem State.fault_shot (s : State) (pg b addr : Nat) (info : Word) (reh : Bool) : (s.fault pg b addr info reh).shot = s.shot := by
  unfold State.fault; dsimp only; (repeat' split) <;> simp

/-! ### State.parityFault -/

@[simp] theorem State.parityFault_pending (s : State) (pg b addr : Nat) (info : Word) (reh : Bool) : (s.parityFault pg b addr info reh).pending = s.pending := by
  unfold State.parityFault; simp
@[simp] theorem State.parityFault_fresh (s : State) (pg b addr : Nat) (info : Word) (reh : Bool) : (s.parityFault pg b addr info reh).fresh = s.fresh := by
  unfold State.parityFault; simp
@[simp] theorem State.parityFault_now (s : State) (pg b addr : Nat) (info : Word) (reh : Bool) : (s.parityFault pg b addr info reh).now = s.now := by
  unfold State.parityFault; simp
@[simp] theorem State.parityFault_acts (s : State) (pg b addr : Nat) (info : Word) (reh : Bool) : (s.parityFault pg b addr info reh).acts = s.acts := by
  unfold State.parityFault; simp
@[simp] theorem State.parityFault_clap (s : State) (pg b addr : Nat) (info : Word) (reh : Bool) : (s.parityFault pg b addr info reh).clap = s.clap := by
  unfold State.parityFault; simp
@[simp] theorem State.parityFault_ptp (s : State) (pg b addr : Nat) (info : Word) (reh : Bool) : (s.parityFault pg b addr info reh).ptp = s.ptp := by
  unfold State.parityFault; simp
@[simp] theorem State.parityFault_sched (s : State) (pg b addr : Nat) (info : Word) (reh : Bool) : (s.parityFault pg b addr info reh).sched = s.sched := by
  unfold State.parityFault; simp
@[simp] theorem State.parityFault_script (s : State) (pg b addr : Nat) (info : Word) (reh : Bool) : (s.parityFault pg b addr info reh).script = s.script := by
  unfold State.parityFault; simp
@[simp] theorem State.parityFault_parts (s : State) (pg b addr : Nat) (info : Word) (reh : Bool) : (s.parityFault pg b addr info reh).parts = s.parts := by
  unfold State.parityFault; simp
@[simp] theorem State.parityFault_stores (s : State) (pg b addr : Nat) (info : Word) (reh : Bool) : (s.parityFault pg b addr info reh).stores = s.stores := by
  unfold State.parityFault; simp
@[simp] theorem State.parityFault_sec (s : State) (pg b addr : Nat) (info : Word) (reh : Bool) : (s.parityFault pg b addr info reh).sec = s.sec := by
  unfold State.parityFault; simp
@[simp] theorem State.parityFault_units (s : State) (pg b addr : Nat) (info : Word) (reh : Bool) : (s.parityFault pg b addr info reh).units = s.units := by
  unfold State.parityFault; simp
@[simp] theorem State.parityFault_splicer (s : State) (pg b addr : Nat) (info : Word) (reh : Bool) : (s.parityFault pg b addr info reh).splicer = s.splicer := by
  unfold State.parityFault; simp
@[simp] theorem State.parityFault_tele (s : State) (pg b addr : Nat) (info : Word) (reh : Bool) : (s.parityFault pg b addr info reh).tele = s.tele := by
  unfold State.parityFault; simp
@[simp] theorem State.parityFault_links (s : State) (pg b addr : Nat) (info : Word) (reh : Bool) : (s.parityFault pg b addr info reh).links = s.links := by
  unfold State.parityFault; simp
@[simp] theorem State.parityFault_twin (s : State) (pg b addr : Nat) (info : Word) (reh : Bool) : (s.parityFault pg b addr info reh).twin = s.twin := by
  unfold State.parityFault; simp
@[simp] theorem State.parityFault_power (s : State) (pg b addr : Nat) (info : Word) (reh : Bool) : (s.parityFault pg b addr info reh).power = s.power := by
  unfold State.parityFault; simp
@[simp] theorem State.parityFault_boot (s : State) (pg b addr : Nat) (info : Word) (reh : Bool) : (s.parityFault pg b addr info reh).boot = s.boot := by
  unfold State.parityFault; simp
@[simp] theorem State.parityFault_reh (s : State) (pg b addr : Nat) (info : Word) (reh : Bool) : (s.parityFault pg b addr info reh).reh = s.reh := by
  unfold State.parityFault; simp
@[simp] theorem State.parityFault_shot (s : State) (pg b addr : Nat) (info : Word) (reh : Bool) : (s.parityFault pg b addr info reh).shot = s.shot := by
  unfold State.parityFault; simp

/-! ### State.releaseTake -/

@[simp] theorem State.releaseTake_pending (s : State)  : (s.releaseTake).pending = s.pending := by
  unfold State.releaseTake; dsimp only; split <;> simp
@[simp] theorem State.releaseTake_fresh (s : State)  : (s.releaseTake).fresh = s.fresh := by
  unfold State.releaseTake; dsimp only; split <;> simp
@[simp] theorem State.releaseTake_now (s : State)  : (s.releaseTake).now = s.now := by
  unfold State.releaseTake; dsimp only; split <;> simp
@[simp] theorem State.releaseTake_acts (s : State)  : (s.releaseTake).acts = s.acts := by
  unfold State.releaseTake; dsimp only; split <;> simp
@[simp] theorem State.releaseTake_clap (s : State)  : (s.releaseTake).clap = s.clap := by
  unfold State.releaseTake; dsimp only; split <;> simp
@[simp] theorem State.releaseTake_ptp (s : State)  : (s.releaseTake).ptp = s.ptp := by
  unfold State.releaseTake; dsimp only; split <;> simp
@[simp] theorem State.releaseTake_sched (s : State)  : (s.releaseTake).sched = s.sched := by
  unfold State.releaseTake; dsimp only; split <;> simp
@[simp] theorem State.releaseTake_script (s : State)  : (s.releaseTake).script = s.script := by
  unfold State.releaseTake; dsimp only; split <;> simp
@[simp] theorem State.releaseTake_parts (s : State)  : (s.releaseTake).parts = s.parts := by
  unfold State.releaseTake; dsimp only; split <;> simp
@[simp] theorem State.releaseTake_stores (s : State)  : (s.releaseTake).stores = s.stores := by
  unfold State.releaseTake; dsimp only; split <;> simp
@[simp] theorem State.releaseTake_sec (s : State)  : (s.releaseTake).sec = s.sec := by
  unfold State.releaseTake; dsimp only; split <;> simp
@[simp] theorem State.releaseTake_units (s : State)  : (s.releaseTake).units = s.units := by
  unfold State.releaseTake; dsimp only; split <;> simp
@[simp] theorem State.releaseTake_splicer (s : State)  : (s.releaseTake).splicer = s.splicer := by
  unfold State.releaseTake; dsimp only; split <;> simp
@[simp] theorem State.releaseTake_tele (s : State)  : (s.releaseTake).tele = s.tele := by
  unfold State.releaseTake; dsimp only; split <;> simp
@[simp] theorem State.releaseTake_links (s : State)  : (s.releaseTake).links = s.links := by
  unfold State.releaseTake; dsimp only; split <;> simp
@[simp] theorem State.releaseTake_power (s : State)  : (s.releaseTake).power = s.power := by
  unfold State.releaseTake; dsimp only; split <;> simp
@[simp] theorem State.releaseTake_boot (s : State)  : (s.releaseTake).boot = s.boot := by
  unfold State.releaseTake; dsimp only; split <;> simp
@[simp] theorem State.releaseTake_reh (s : State)  : (s.releaseTake).reh = s.reh := by
  unfold State.releaseTake; dsimp only; split <;> simp
@[simp] theorem State.releaseTake_shot (s : State)  : (s.releaseTake).shot = s.shot := by
  unfold State.releaseTake; dsimp only; split <;> simp

/-! ### State.setRole -/

@[simp] theorem State.setRole_pending (s : State) (r : Role) : (s.setRole r).pending = s.pending := by
  rfl
@[simp] theorem State.setRole_out (s : State) (r : Role) : (s.setRole r).out = s.out := by
  rfl
@[simp] theorem State.setRole_fresh (s : State) (r : Role) : (s.setRole r).fresh = s.fresh := by
  rfl
@[simp] theorem State.setRole_now (s : State) (r : Role) : (s.setRole r).now = s.now := by
  rfl
@[simp] theorem State.setRole_reg (s : State) (r : Role) : (s.setRole r).reg = s.reg := by
  rfl
@[simp] theorem State.setRole_acts (s : State) (r : Role) : (s.setRole r).acts = s.acts := by
  rfl
@[simp] theorem State.setRole_clap (s : State) (r : Role) : (s.setRole r).clap = s.clap := by
  rfl
@[simp] theorem State.setRole_ptp (s : State) (r : Role) : (s.setRole r).ptp = s.ptp := by
  rfl
@[simp] theorem State.setRole_sched (s : State) (r : Role) : (s.setRole r).sched = s.sched := by
  rfl
@[simp] theorem State.setRole_script (s : State) (r : Role) : (s.setRole r).script = s.script := by
  rfl
@[simp] theorem State.setRole_parts (s : State) (r : Role) : (s.setRole r).parts = s.parts := by
  rfl
@[simp] theorem State.setRole_stores (s : State) (r : Role) : (s.setRole r).stores = s.stores := by
  rfl
@[simp] theorem State.setRole_sec (s : State) (r : Role) : (s.setRole r).sec = s.sec := by
  rfl
@[simp] theorem State.setRole_units (s : State) (r : Role) : (s.setRole r).units = s.units := by
  rfl
@[simp] theorem State.setRole_splicer (s : State) (r : Role) : (s.setRole r).splicer = s.splicer := by
  rfl
@[simp] theorem State.setRole_tele (s : State) (r : Role) : (s.setRole r).tele = s.tele := by
  rfl
@[simp] theorem State.setRole_d2d (s : State) (r : Role) : (s.setRole r).d2d = s.d2d := by
  rfl
@[simp] theorem State.setRole_links (s : State) (r : Role) : (s.setRole r).links = s.links := by
  rfl
@[simp] theorem State.setRole_power (s : State) (r : Role) : (s.setRole r).power = s.power := by
  rfl
@[simp] theorem State.setRole_boot (s : State) (r : Role) : (s.setRole r).boot = s.boot := by
  rfl
@[simp] theorem State.setRole_reh (s : State) (r : Role) : (s.setRole r).reh = s.reh := by
  rfl
@[simp] theorem State.setRole_dly (s : State) (r : Role) : (s.setRole r).dly = s.dly := by
  rfl
@[simp] theorem State.setRole_shot (s : State) (r : Role) : (s.setRole r).shot = s.shot := by
  rfl

/-! ### State.graveDiag -/

@[simp] theorem State.graveDiag_pending (s : State) (k : GraveKind) (reh : Bool) : (s.graveDiag k reh).pending = s.pending := by
  unfold State.graveDiag; dsimp only; (repeat' split) <;> simp
@[simp] theorem State.graveDiag_fresh (s : State) (k : GraveKind) (reh : Bool) : (s.graveDiag k reh).fresh = s.fresh := by
  unfold State.graveDiag; dsimp only; (repeat' split) <;> simp
@[simp] theorem State.graveDiag_now (s : State) (k : GraveKind) (reh : Bool) : (s.graveDiag k reh).now = s.now := by
  unfold State.graveDiag; dsimp only; (repeat' split) <;> simp
@[simp] theorem State.graveDiag_acts (s : State) (k : GraveKind) (reh : Bool) : (s.graveDiag k reh).acts = s.acts := by
  unfold State.graveDiag; dsimp only; (repeat' split) <;> simp
@[simp] theorem State.graveDiag_clap (s : State) (k : GraveKind) (reh : Bool) : (s.graveDiag k reh).clap = s.clap := by
  unfold State.graveDiag; dsimp only; (repeat' split) <;> simp
@[simp] theorem State.graveDiag_ptp (s : State) (k : GraveKind) (reh : Bool) : (s.graveDiag k reh).ptp = s.ptp := by
  unfold State.graveDiag; dsimp only; (repeat' split) <;> simp
@[simp] theorem State.graveDiag_sched (s : State) (k : GraveKind) (reh : Bool) : (s.graveDiag k reh).sched = s.sched := by
  unfold State.graveDiag; dsimp only; (repeat' split) <;> simp
@[simp] theorem State.graveDiag_script (s : State) (k : GraveKind) (reh : Bool) : (s.graveDiag k reh).script = s.script := by
  unfold State.graveDiag; dsimp only; (repeat' split) <;> simp
@[simp] theorem State.graveDiag_parts (s : State) (k : GraveKind) (reh : Bool) : (s.graveDiag k reh).parts = s.parts := by
  unfold State.graveDiag; dsimp only; (repeat' split) <;> simp
@[simp] theorem State.graveDiag_stores (s : State) (k : GraveKind) (reh : Bool) : (s.graveDiag k reh).stores = s.stores := by
  unfold State.graveDiag; dsimp only; (repeat' split) <;> simp
@[simp] theorem State.graveDiag_sec (s : State) (k : GraveKind) (reh : Bool) : (s.graveDiag k reh).sec = s.sec := by
  unfold State.graveDiag; dsimp only; (repeat' split) <;> simp
@[simp] theorem State.graveDiag_units (s : State) (k : GraveKind) (reh : Bool) : (s.graveDiag k reh).units = s.units := by
  unfold State.graveDiag; dsimp only; (repeat' split) <;> simp
@[simp] theorem State.graveDiag_splicer (s : State) (k : GraveKind) (reh : Bool) : (s.graveDiag k reh).splicer = s.splicer := by
  unfold State.graveDiag; dsimp only; (repeat' split) <;> simp
@[simp] theorem State.graveDiag_tele (s : State) (k : GraveKind) (reh : Bool) : (s.graveDiag k reh).tele = s.tele := by
  unfold State.graveDiag; dsimp only; (repeat' split) <;> simp
@[simp] theorem State.graveDiag_links (s : State) (k : GraveKind) (reh : Bool) : (s.graveDiag k reh).links = s.links := by
  unfold State.graveDiag; dsimp only; (repeat' split) <;> simp
@[simp] theorem State.graveDiag_power (s : State) (k : GraveKind) (reh : Bool) : (s.graveDiag k reh).power = s.power := by
  unfold State.graveDiag; dsimp only; (repeat' split) <;> simp
@[simp] theorem State.graveDiag_boot (s : State) (k : GraveKind) (reh : Bool) : (s.graveDiag k reh).boot = s.boot := by
  unfold State.graveDiag; dsimp only; (repeat' split) <;> simp
@[simp] theorem State.graveDiag_reh (s : State) (k : GraveKind) (reh : Bool) : (s.graveDiag k reh).reh = s.reh := by
  unfold State.graveDiag; dsimp only; (repeat' split) <;> simp
@[simp] theorem State.graveDiag_shot (s : State) (k : GraveKind) (reh : Bool) : (s.graveDiag k reh).shot = s.shot := by
  unfold State.graveDiag; dsimp only; (repeat' split) <;> simp

/-! ### Event bits and registers -/

@[simp] theorem State.latchVec_hdr (s : State) (v pg : Nat) : (s.latchVec v).hdr pg = s.hdr pg := by
  unfold State.latchVec; dsimp only; split <;> rfl

theorem State.latchVec_rd (s : State) (v : Nat) {pg off : Nat} (h : countsEvents (rk pg off) = false) :
    (s.latchVec v).rd pg off = s.rd pg off := by
  have h1 : rk pg off ≠ rk pgD2d 0x84 := by
    intro e; simp [countsEvents, e] at h
  unfold State.latchVec
  dsimp only
  split
  · exact State.rd_count_ne _ _ _ _ h1
  · rfl

theorem State.note_rd (s : State) (d : Daily) {pg off : Nat} (h : countsEvents (rk pg off) = false) :
    (s.note d).rd pg off = s.rd pg off := by
  have h1 : rk pg off ≠ rk pgDailies 0x50 := by
    intro e; simp [countsEvents, e] at h
  have hc : (s.count pgDailies 0x50 1).rd pg off = s.rd pg off := State.rd_count_ne _ _ _ _ h1
  unfold State.note
  dsimp only
  repeat' split
  all_goals first | rfl | exact hc | (rw [State.latchVec_rd _ _ h]; rfl)

theorem State.note_bit (s : State) (d : Daily) {pg b : Nat} (hb : b < 32) (h : bit (s.hdr pg).evt b = true) :
    bit ((s.note d).hdr pg).evt b = true := by
  unfold State.note
  dsimp only
  repeat' split
  all_goals try rw [State.latchVec_hdr]
  all_goals first
    | exact h
    | (by_cases hp : pg = pgDailies
       · subst hp
         rw [State.hdr_modHdr_same]
         by_cases h8 : b = 8
         · subst h8; exact bit_setBit_same _ _ _ (by decide)
         · rw [bit_setBit_ne _ _ hb h8]; exact h
       · rw [State.hdr_modHdr_ne _ _ _ hp]; exact h)

/-- Raising an event leaves every register but the two counters. -/
theorem State.raiseWith_rd (s : State) (pg b : Nat) (r l : Bool) {pg' off : Nat} (h : countsEvents (rk pg' off) = false) :
    (s.raiseWith pg b r l).rd pg' off = s.rd pg' off := by
  unfold State.raiseWith
  dsimp only
  split <;> split <;> simp [State.latchVec_rd, State.note_rd, h]

theorem State.raise_rd (s : State) (pg b : Nat) {pg' off : Nat} (h : countsEvents (rk pg' off) = false) :
    (s.raise pg b).rd pg' off = s.rd pg' off := s.raiseWith_rd pg b false false h

/-- The event's bit is set in BLK_EVT. -/
theorem State.raiseWith_bit (s : State) (pg : Nat) {b : Nat} (r l : Bool) (hb : b < 32) :
    bit ((s.raiseWith pg b r l).hdr pg).evt b = true := by
  have h0 : ∀ d, bit ((((s.modHdr pg fun h => { h with evt := setBit h.evt b true, synth := false }).note d).hdr pg).evt) b = true := by
    intro d
    apply State.note_bit _ _ hb
    rw [State.hdr_modHdr_same]
    exact bit_setBit_same _ _ _ hb
  unfold State.raiseWith
  dsimp only
  split <;> split <;> simp [h0]

theorem State.raise_bit (s : State) (pg : Nat) {b : Nat} (hb : b < 32) : bit ((s.raise pg b).hdr pg).evt b = true :=
  s.raiseWith_bit pg false false hb

/-- Events that are set stay set. -/
theorem State.raiseWith_keeps (s : State) (pg b : Nat) (r l : Bool) {pg' b' : Nat} (hb : b' < 32)
    (h : bit (s.hdr pg').evt b' = true) : bit ((s.raiseWith pg b r l).hdr pg').evt b' = true := by
  have h0 : ∀ d, bit ((((s.modHdr pg fun h => { h with evt := setBit h.evt b true, synth := false }).note d).hdr pg').evt) b' = true := by
    intro d
    apply State.note_bit _ _ hb
    by_cases hp : pg' = pg
    · subst hp
      rw [State.hdr_modHdr_same]
      by_cases he : b' = b
      · subst he; exact bit_setBit_same _ _ _ hb
      · simp only; rw [bit_setBit_ne _ _ hb he]; exact h
    · rw [State.hdr_modHdr_ne _ _ _ hp]; exact h
  unfold State.raiseWith
  dsimp only
  split <;> split <;> simp [h0]

theorem State.raise_keeps (s : State) (pg b : Nat) {pg' b' : Nat} (hb : b' < 32)
    (h : bit (s.hdr pg').evt b' = true) : bit ((s.raise pg b).hdr pg').evt b' = true :=
  s.raiseWith_keeps pg b false false hb h

/-- A fault raises its event, and the latch or FAULT_MORE (R255). -/
theorem State.fault_bit (s : State) (pg : Nat) {b : Nat} (addr : Nat) (info : Word) (reh : Bool) (hb : b < 32) :
    bit ((s.fault pg b addr info reh).hdr pg).evt b = true := by
  unfold State.fault
  dsimp only
  split
  · exact State.raiseWith_keeps _ _ _ _ _ hb (State.raiseWith_bit _ _ _ _ hb)
  · exact State.raiseWith_keeps _ _ _ _ _ hb (State.raiseWith_bit _ _ _ _ hb)

theorem State.fault_rd (s : State) (pg b addr : Nat) (info : Word) (reh : Bool) {pg' off : Nat}
    (h : countsEvents (rk pg' off) = false) : (s.fault pg b addr info reh).rd pg' off = s.rd pg' off := by
  unfold State.fault
  dsimp only
  split <;> split <;> simp [State.raiseWith_rd, h]

end Sys2Proof.Machine
end

