-- ==== Sys2Proof/Laws/After.lean ====
section
/-! SUPPORT. Raising an event or latching a fault is one of the steps that AfterEvents allows, and such steps compose; a
writable register's write passes the gate unaltered. -/
namespace Sys2Proof.Machine

theorem sameControls.refl (a : Hdr) : sameControls a a := ⟨rfl, rfl, rfl, rfl, rfl, rfl⟩

theorem sameControls.trans {a b c : Hdr} (h : sameControls a b) (k : sameControls b c) : sameControls a c :=
  ⟨h.1.trans k.1, h.2.1.trans k.2.1, h.2.2.1.trans k.2.2.1, h.2.2.2.1.trans k.2.2.2.1, h.2.2.2.2.1.trans k.2.2.2.2.1,
    h.2.2.2.2.2.trans k.2.2.2.2.2⟩

theorem AfterEvents.refl (s : State) : AfterEvents s s :=
  ⟨rfl, rfl, rfl, rfl, rfl, rfl, rfl, fun _ => sameControls.refl _, fun _ _ _ h => h, fun _ _ _ => rfl⟩

theorem AfterEvents.trans {a b c : State} (h : AfterEvents a b) (k : AfterEvents b c) : AfterEvents a c := by
  refine ⟨?_, ?_, k.force.trans h.force, k.due.trans h.due, k.held.trans h.held, k.snap.trans h.snap,
    k.snapTick.trans h.snapTick, fun pg => (h.ctrl pg).trans (k.ctrl pg),
    fun pg b hb e => k.stands pg b hb (h.stands pg b hb e), fun pg off hc => (k.regs pg off hc).trans (h.regs pg off hc)⟩
  · rw [k.rest, h.rest]
  · rw [k.d2d, h.d2d]

theorem AfterEvents.modHdr (s : State) (pg : Nat) (f : Hdr → Hdr) (hc : ∀ h, sameControls h (f h))
    (hs : ∀ h b, b < 32 → bit h.evt b = true → bit (f h).evt b = true) : AfterEvents s (s.modHdr pg f) := by
  refine ⟨rfl, rfl, rfl, rfl, rfl, rfl, rfl, fun p => ?_, fun p b hb e => ?_, fun _ _ _ => rfl⟩
  · by_cases hp : p = pg
    · subst hp; rw [State.hdr_modHdr_same]; exact hc _
    · rw [State.hdr_modHdr_ne _ _ _ hp]; exact sameControls.refl _
  · unfold State.has at *
    by_cases hp : p = pg
    · subst hp; rw [State.hdr_modHdr_same]; exact hs _ _ hb e
    · rw [State.hdr_modHdr_ne _ _ _ hp]; exact e

/-- A step outside the headers that the relation allows. -/
theorem AfterEvents.count (s : State) (pg off n : Nat) (h : countsEvents (rk pg off) = true) : AfterEvents s (s.count pg off n) := by
  refine ⟨rfl, rfl, rfl, rfl, rfl, rfl, rfl, fun _ => sameControls.refl _, fun _ _ _ h => h, fun pg' off' hc => ?_⟩
  refine State.rd_count_ne _ _ _ _ ?_
  intro e
  rw [e, h] at hc
  exact absurd hc (by decide)

theorem AfterEvents.dly (s : State) (d : Dailies) : AfterEvents s { s with dly := d } :=
  ⟨rfl, rfl, rfl, rfl, rfl, rfl, rfl, fun _ => sameControls.refl _, fun _ _ _ h => h, fun _ _ _ => rfl⟩

theorem AfterEvents.out (s : State) (o : List Output) : AfterEvents s { s with out := o } :=
  ⟨rfl, rfl, rfl, rfl, rfl, rfl, rfl, fun _ => sameControls.refl _, fun _ _ _ h => h, fun _ _ _ => rfl⟩

theorem AfterEvents.latch (s : State) (l : Nat) : AfterEvents s { s with d2d := { s.d2d with latch := l } } :=
  ⟨rfl, rfl, rfl, rfl, rfl, rfl, rfl, fun _ => sameControls.refl _, fun _ _ _ h => h, fun _ _ _ => rfl⟩

theorem AfterEvents.begin (s : State) : AfterEvents s s.begin := AfterEvents.out s []

theorem AfterEvents.setEvt (s : State) (pg b : Nat) (y : Bool) :
    AfterEvents s (s.modHdr pg fun h => { h with evt := setBit h.evt b true, synth := y }) := by
  refine AfterEvents.modHdr _ _ _ (fun _ => sameControls.refl _) (fun h j hj e => ?_)
  by_cases hb : j = b
  · subst hb; exact bit_setBit_same _ _ _ hj
  · simp only; rw [bit_setBit_ne _ _ hj hb]; exact e

theorem AfterEvents.sendVec (s : State) (v : Nat) : AfterEvents s (s.sendVec v) := by
  unfold State.sendVec
  dsimp only
  exact ((AfterEvents.latch s _).trans (AfterEvents.count _ _ _ _ (by decide))).trans (AfterEvents.out _ _)

theorem AfterEvents.latchVec (s : State) (v : Nat) : AfterEvents s (s.latchVec v) := by
  unfold State.latchVec
  dsimp only
  split
  · exact (AfterEvents.latch s _).trans (AfterEvents.sendVec _ v)
  · exact AfterEvents.latch s _

theorem AfterEvents.note (s : State) (d : Daily) : AfterEvents s (s.note d) := by
  have hl : AfterEvents s (s.count pgDailies 0x50 1) := AfterEvents.count _ _ _ _ (by decide)
  unfold State.note
  dsimp only
  split
  · split
    · split
      · exact hl
      · exact hl.trans (AfterEvents.dly _ _)
    · split
      · refine AfterEvents.trans (AfterEvents.dly s ⟨d :: s.dly.recs, s.dly.head + 1, s.dly.dumpSt, s.dly.dumpCount, s.dly.dumping,
          s.dly.dumpAddr, s.dly.profSlates, s.dly.prof⟩) ?_
        have h := AfterEvents.setEvt ({ s with dly := ⟨d :: s.dly.recs, s.dly.head + 1, s.dly.dumpSt, s.dly.dumpCount, s.dly.dumping,
          s.dly.dumpAddr, s.dly.profSlates, s.dly.prof⟩ } : State) pgDailies 8 false
        split
        · exact h.trans (AfterEvents.latchVec _ 2)
        · exact h
      · exact AfterEvents.dly _ _
  · exact AfterEvents.refl _

theorem AfterEvents.raiseWith (s : State) (pg b : Nat) (r l : Bool) : AfterEvents s (s.raiseWith pg b r l) := by
  have h1 : ∀ d, AfterEvents s ((s.modHdr pg fun h => { h with evt := setBit h.evt b true, synth := false }).note d) :=
    fun d => (AfterEvents.setEvt s pg b false).trans (AfterEvents.note _ d)
  unfold State.raiseWith
  dsimp only
  split <;> split
  · exact ((h1 _).trans (AfterEvents.latchVec _ _)).trans (AfterEvents.latchVec _ _)
  · exact (h1 _).trans (AfterEvents.latchVec _ _)
  · exact (h1 _).trans (AfterEvents.latchVec _ _)
  · exact h1 _

theorem AfterEvents.raise (s : State) (pg b : Nat) : AfterEvents s (s.raise pg b) := AfterEvents.raiseWith s pg b false false

theorem AfterEvents.raiseIf (s : State) (c : Bool) (pg b : Nat) : AfterEvents s (s.raiseIf c pg b) := by
  unfold State.raiseIf
  split
  · exact AfterEvents.raise s pg b
  · exact AfterEvents.refl s

theorem AfterEvents.fault (s : State) (pg b addr : Nat) (info : Word) (reh : Bool) : AfterEvents s (s.fault pg b addr info reh) := by
  have hm : ∀ (u : State) (q : Nat) (i : Word) (tf : Bool), AfterEvents u (u.modHdr pg fun h => { h with faddr := q, finfo := i, tenantFault := tf }) :=
    fun u q i tf => AfterEvents.modHdr _ _ _ (fun _ => sameControls.refl _) (fun _ _ _ e => e)
  have h0 : AfterEvents s (if reh = true then s.raiseWith pg evRehearsal true false else s) := by
    split
    · exact AfterEvents.raiseWith s pg _ true false
    · exact AfterEvents.refl s
  unfold State.fault
  dsimp only
  split
  · exact (h0.trans (AfterEvents.raiseWith _ _ _ _ _)).trans (AfterEvents.raiseWith _ _ _ _ _)
  · exact ((h0.trans (hm _ _ _ _)).trans (AfterEvents.raiseWith _ _ _ _ _)).trans (AfterEvents.raiseWith _ _ _ _ _)

theorem AfterEvents.parityFault (s : State) (pg b addr : Nat) (info : Word) (reh : Bool) :
    AfterEvents s (s.parityFault pg b addr info reh) := by
  have hm : AfterEvents s (s.modHdr pg fun h => { h with perr := satAdd h.perr 1 }) :=
    AfterEvents.modHdr _ _ _ (fun _ => sameControls.refl _) (fun _ _ _ e => e)
  exact (hm.trans (AfterEvents.raiseWith _ pg evParity reh false)).trans (AfterEvents.fault _ pg b addr info reh)

/-- Events that stand in `u` stand after. -/
theorem AfterEvents.has {u t : State} (h : AfterEvents u t) {pg b : Nat} (hb : b < 32) (e : u.has pg b = true) : t.has pg b = true :=
  h.stands pg b hb e

theorem State.has_raise (s : State) (pg : Nat) {b : Nat} (hb : b < 32) : (s.raise pg b).has pg b = true := State.raise_bit s pg hb

theorem State.has_fault (s : State) (pg : Nat) {b : Nat} (addr : Nat) (info : Word) (reh : Bool) (hb : b < 32) :
    (s.fault pg b addr info reh).has pg b = true := State.fault_bit s pg addr info reh hb

/-! ### The gate -/

theorem word_and_mask (v m : Word) (h : v &&& ~~~m = 0) : v &&& m = v := by
  apply BitVec.eq_of_getLsbD_eq
  intro i hi
  have := congrArg (fun w => w.getLsbD i) h
  simp only [BitVec.getLsbD_and, BitVec.getLsbD_not] at this ⊢
  cases hv : v.getLsbD i <;> simp_all

/-- A write that the page takes whole arrives unaltered, and raises nothing. -/
theorem State.arrive_accepts {s : State} {pg off : Nat} {v : Word} (h : s.accepts pg off v = true) :
    s.arrive pg off v = (some v, s) := by
  unfold State.accepts at h
  simp only [Bool.and_eq_true, Bool.not_eq_true'] at h
  obtain ⟨⟨h3, h4⟩, h5⟩ := h
  unfold State.arrive
  rw [h3]
  cases hr : regRow pg off with
  | none => rw [hr] at h5; simp at h5
  | some r =>
    rw [hr] at h5
    simp only [Bool.and_eq_true, Bool.not_eq_true', decide_eq_true_eq, Bool.or_eq_false_iff, decide_eq_false_iff_not] at h5
    obtain ⟨⟨ha, hb⟩, hm⟩ := h5
    simp [ha, hb, hm, State.raiseIf, h4, word_and_mask v (word r.mask) hm]

/-- A writable register's write passes the gate unaltered, and raises nothing. -/
theorem State.gate_writable {s : State} {pg off : Nat} {v : Word} (h : s.writable pg off v = true) :
    s.gate pg off v = (some v, s) := by
  unfold State.writable at h
  simp only [Bool.and_eq_true, Bool.not_eq_true'] at h
  obtain ⟨⟨h1, h2⟩, h3⟩ := h
  unfold State.gate
  rw [h1, h2]
  exact State.arrive_accepts h3

theorem State.gated_writable {s : State} {pg off : Nat} {v : Word} (f : State → Word → State) (h : s.writable pg off v = true) :
    s.gated pg off v f = f s v := by
  unfold State.gated
  rw [State.gate_writable h]

end Sys2Proof.Machine
end

