-- ==== Sys2Proof/Laws/Memory.lean ====
section
/-! SUPPORT. Both stores keep their canonical form under every operation that writes them, and a store operation writes
no store but its own. -/
namespace Sys2Proof.Machine

/-- What holds of both branches holds of a choice between them. -/
theorem ite_holds {α : Type} (P : α → Prop) {c : Prop} [Decidable c] {a b : α} (ha : P a) (hb : P b) : P (if c then a else b) := by
  split <;> assumption

/-- Reset's stores list nothing. -/
theorem memOk_reset : State.reset.memOk = true := rfl

theorem memOk_of_stores {s t : State} (h : t.stores = s.stores) (hs : s.memOk = true) : t.memOk = true := by
  simpa [State.memOk, h] using hs

theorem memOk_pokeMain (s : State) (pa : Nat) (bs : Bytes) (h : s.memOk = true) : (s.pokeMain pa bs).memOk = true := by
  simp only [State.memOk, Bool.and_eq_true] at h ⊢
  exact ⟨mwf_msetMany bs pa h.1, h.2⟩

theorem memOk_pokePark (s : State) (ppa : Nat) (bs : Bytes) (h : s.memOk = true) : (s.pokePark ppa bs).memOk = true := by
  simp only [State.memOk, Bool.and_eq_true] at h ⊢
  exact ⟨h.1, mwf_msetMany bs ppa h.2⟩

/-- The lists of both stores are those of `s`. -/
def sameCells (s t : State) : Prop := t.stores.main = s.stores.main ∧ t.stores.park = s.stores.park

theorem sameCells.of_stores {s t : State} (h : t.stores = s.stores) : sameCells s t := by rw [sameCells, h]; exact ⟨rfl, rfl⟩

theorem sameCells.trans {a b c : State} (h : sameCells a b) (k : sameCells b c) : sameCells a c :=
  ⟨k.1.trans h.1, k.2.trans h.2⟩

theorem memOk_sameCells {s t : State} (h : sameCells s t) (hs : s.memOk = true) : t.memOk = true := by
  simpa [State.memOk, h.1, h.2] using hs

theorem sameCells_foldl {α : Type} (f : State → α → State) (l : List α) (h : ∀ s a, sameCells s (f s a)) :
    ∀ s, sameCells s (l.foldl f s) := by
  induction l with
  | nil => exact fun s => ⟨rfl, rfl⟩
  | cons a r ih => exact fun s => (h s a).trans (ih _)

theorem sameCells_ite {c : Prop} [Decidable c] {s a b : State} (ha : sameCells s a) (hb : sameCells s b) :
    sameCells s (if c then a else b) := ite_holds (sameCells s) ha hb

theorem sameCells_zeroRange (s : State) (p l lo hi : Nat) : sameCells s (s.zeroRange p l lo hi) := by
  unfold State.zeroRange
  exact sameCells_ite ⟨rfl, rfl⟩ ⟨rfl, rfl⟩

/-- A scrub's units are dropped from one store, and the other keeps its bytes (R180, R181). -/
theorem State.writeShare_cells (s : State) (p m n : Nat) : ∃ hit : Nat → Bool,
    (s.writeShare p m n).stores.main = (if m = 8 then s.stores.main else mdrop hit s.stores.main)
    ∧ (s.writeShare p m n).stores.park = (if m = 8 then mdrop hit s.stores.park else s.stores.park) := by
  let P : State → Prop := fun t => ∃ hit : Nat → Bool,
    t.stores.main = (if m = 8 then s.stores.main else mdrop hit s.stores.main)
    ∧ t.stores.park = (if m = 8 then mdrop hit s.stores.park else s.stores.park)
  show P (s.writeShare p m n)
  have lift : ∀ {t u : State}, P t → sameCells t u → P u := fun ⟨hit, e1, e2⟩ h => ⟨hit, h.1.trans e1, h.2.trans e2⟩
  have p8 : ∀ (t : State) (hit : Nat → Bool), m = 8 → t.stores.main = s.stores.main → t.stores.park = mdrop hit s.stores.park → P t :=
    fun t hit h e1 e2 => ⟨hit, by rw [if_pos h, e1], by rw [if_pos h, e2]⟩
  have p0 : ∀ (t : State) (hit : Nat → Bool), ¬m = 8 → t.stores.main = mdrop hit s.stores.main → t.stores.park = s.stores.park → P t :=
    fun t hit h e1 e2 => ⟨hit, by rw [if_neg h, e1], by rw [if_neg h, e2]⟩
  unfold State.writeShare
  by_cases h : m = 8
  · rw [if_pos h]
    dsimp only
    refine lift ?_ (sameCells_foldl _ _ ?_ _)
    · exact p8 _ (fun a => decide (s.pkBase p ≤ a) && decide (a < s.pkBase p + min (s.pkSize p) (n * 2 ^ 21))
        && (s.ctl m).up.testBit (ifOf a)) h rfl rfl
    · exact fun s i => sameCells_ite (sameCells_zeroRange s _ _ _ _) ⟨rfl, rfl⟩
  · rw [if_neg h]
    dsimp only
    refine lift ?_ (sameCells_foldl _ _ ?_ _)
    · exact p0 _ (fun a => s.inArea p a && decide (linkOf a / 4 = m) && (s.ctl m).up.testBit (linkOf a % 4)
        && decide (s.areaOff p a < n * 2 ^ 24)) h rfl rfl
    · exact fun s i => sameCells_ite ((sameCells_zeroRange s _ _ _ _).trans (sameCells_zeroRange _ _ _ _ _)) ⟨rfl, rfl⟩

theorem memOk_writeShare (s : State) (p m n : Nat) (h : s.memOk = true) : (s.writeShare p m n).memOk = true := by
  obtain ⟨hit, h1, h2⟩ := s.writeShare_cells p m n
  simp only [State.memOk, h1, h2, Bool.and_eq_true] at h ⊢
  exact ⟨ite_holds (fun l => Memory.wf l = true) h.1 (mwf_mdrop _ h.1), ite_holds (fun l => Memory.wf l = true) (mwf_mdrop _ h.2) h.2⟩

theorem memOk_setBadMain (s : State) (g v : Nat) (h : s.memOk = true) : (s.setBadMain g v).memOk = true := h
theorem memOk_setBadPark (s : State) (g v : Nat) (h : s.memOk = true) : (s.setBadPark g v).memOk = true := h

/-! ### What the accesses leave alone -/

@[simp] theorem State.chargeA_stores (s : State) (wr : Bool) (n : Nat) : (s.chargeA wr n).stores = s.stores := by
  have h : ∀ u : State, u.stores = s.stores → (((({ u with sched := { u.sched with shareExc := true } } : State).count pgSched 0xC0 1).raise
      pgSched 10).stores = s.stores) := fun u hu => (State.raise_stores _ _ _).trans hu
  unfold State.chargeA
  cases wr
  · exact ite_holds (fun t : State => t.stores = s.stores) (h _ rfl) rfl
  · exact ite_holds (fun t : State => t.stores = s.stores) (h _ rfl) rfl

@[simp] theorem State.snoopFor_stores (s : State) (q : Requester) (g : Nat) (wr : Bool) : (s.snoopFor q g wr).stores = s.stores := by
  unfold State.snoopFor
  exact ite_holds (fun t : State => t.stores = s.stores) rfl rfl

/-- A granule's write is the write of its bytes in a state whose stores list what they did, or no write. -/
theorem State.writeGran_shape (s : State) (q : Requester) (pa : Nat) (bs : Bytes) :
    ∃ u : State, sameCells s u ∧ ((s.writeGran q pa bs).2 = u ∨ (s.writeGran q pa bs).2 = u.pokeMain pa bs) := by
  let P : Option StoreErr × State → Prop := fun r => ∃ u : State, sameCells s u ∧ (r.2 = u ∨ r.2 = u.pokeMain pa bs)
  show P (s.writeGran q pa bs)
  have h0 : sameCells s (s.snoopFor q (pa / 64) true) := .of_stores (s.snoopFor_stores q _ true)
  unfold State.writeGran
  generalize s.snoopFor q (pa / 64) true = s0 at h0
  refine ite_holds P ⟨_, h0.trans (.of_stores (State.fault_stores _ _ _ _ _ _)), .inl rfl⟩ (ite_holds P ⟨s0, h0, .inl rfl⟩
    (ite_holds P ⟨s0.dropReport (pa / 64), h0.trans ⟨rfl, rfl⟩, .inl rfl⟩ ?_))
  unfold State.serveWrite
  refine ite_holds P ⟨_, h0.trans (.of_stores (State.parityFault_stores _ _ _ _ _ _)), .inl rfl⟩ ?_
  refine ⟨_, h0.trans ?_, .inr rfl⟩
  have hb : ∀ (u : State) g v k, sameCells u ((u.setBadMain g v).setMainTag g k) := fun _ _ _ _ => ⟨rfl, rfl⟩
  refine sameCells.trans ?_ (hb _ _ _ _)
  refine sameCells.trans ?_ (sameCells_ite ⟨rfl, rfl⟩ ⟨rfl, rfl⟩)
  exact sameCells.trans ⟨rfl, rfl⟩ (sameCells_ite (.of_stores (State.chargeA_stores _ _ _)) ⟨rfl, rfl⟩)

theorem State.writeGran_main (s : State) (q : Requester) (pa : Nat) (bs : Bytes) :
    (s.writeGran q pa bs).2.stores.main = s.stores.main
      ∨ (s.writeGran q pa bs).2.stores.main = msetMany memDefault s.stores.main pa bs := by
  obtain ⟨u, hu, e | e⟩ := s.writeGran_shape q pa bs
  · exact .inl (by rw [e, hu.1])
  · exact .inr (by rw [e, ← hu.1]; rfl)

theorem State.writeGran_park (s : State) (q : Requester) (pa : Nat) (bs : Bytes) :
    (s.writeGran q pa bs).2.stores.park = s.stores.park := by
  obtain ⟨u, hu, e | e⟩ := s.writeGran_shape q pa bs
  · rw [e, hu.2]
  · rw [e, ← hu.2]; rfl

/-- An operation's answer carries stores in canonical form.  A name for it keeps the kernel from evaluating the operation
when two spellings of it are compared. -/
def memOkAfter {α : Type} (r : α × State) : Prop := r.2.memOk = true

theorem memOkAfter_mk {α : Type} (a : α) {t : State} (h : t.memOk = true) : memOkAfter (a, t) := h

theorem memOkAfter_writeGran (s : State) (q : Requester) (pa : Nat) (bs : Bytes) (h : s.memOk = true) :
    memOkAfter (s.writeGran q pa bs) := by
  obtain ⟨u, hu, e | e⟩ := s.writeGran_shape q pa bs
  · rw [memOkAfter, e]; exact memOk_sameCells hu h
  · rw [memOkAfter, e]; exact memOk_pokeMain u pa bs (memOk_sameCells hu h)

/-- What holds after an operation and after both ways to go on from it. -/
theorem onErr_holds {ε α : Type} (P : State → Prop) (Q : α → Prop) {r : Option ε × State} {f : ε → State → α} {k : State → α}
    (h : P r.2) (hf : ∀ e s, P s → Q (f e s)) (hk : ∀ s, P s → Q (k s)) : Q (onErr r f k) := by
  obtain ⟨_ | e, s⟩ := r
  · exact hk s h
  · exact hf e s h

theorem memOkAfter_writeGrans (n : Nat) : ∀ (s : State) (q : Requester) (pa : Nat) (bs : Bytes), s.memOk = true →
    memOkAfter (s.writeGrans q pa bs n) := by
  induction n with
  | zero => intro s q pa bs h; exact h
  | succ n ih =>
    intro s q pa bs h
    unfold State.writeGrans
    exact onErr_holds (fun s => s.memOk = true) memOkAfter (memOkAfter_writeGran s q pa _ h) (fun _ _ h => h)
      fun s h => ih s q _ _ h

theorem memOkAfter_store (s : State) (q : Requester) (a : Nat) (bs : Bytes) (h : s.memOk = true) : memOkAfter (s.store q a bs) := by
  unfold State.store
  exact memOkAfter_writeGrans _ _ _ _ _ h

theorem memOkAfter_storePoison (s : State) (q : Requester) (a : Nat) (bs : Bytes) (h : s.memOk = true) :
    memOkAfter (s.storePoison q a bs) := by
  unfold State.storePoison
  exact onErr_holds (fun s => s.memOk = true) memOkAfter (memOkAfter_store s q a bs h) (fun _ _ h => h) fun _ h => h

/-- The bytes outside a granule's write read as before. -/
theorem State.writeGran_outside (s : State) (q : Requester) (pa : Nat) (bs : Bytes) {b : Nat} (h : b < pa ∨ pa + bs.length ≤ b) :
    mget memDefault (s.writeGran q pa bs).2.stores.main b = mget memDefault s.stores.main b := by
  rcases s.writeGran_main q pa bs with e | e
  · rw [e]
  · rw [e]; exact mget_msetMany_out memDefault bs s.stores.main h

theorem memOk_putStripe (s : State) (k ppa : Nat) (bs : Bytes) (bad : Nat → Bool) (h : s.memOk = true) :
    (s.putStripe k ppa bs bad).memOk = true := by
  unfold State.putStripe
  dsimp only
  refine memOk_sameCells (sameCells_foldl _ _ ?_ _) (memOk_pokePark _ ppa bs ?_)
  · exact fun _ _ => ⟨rfl, rfl⟩
  · exact memOk_of_stores (State.count_stores _ _ _ _) h

theorem memOkAfter_writeStripes (n : Nat) : ∀ (s : State) (p unit ppa : Nat) (bs : Bytes) (bad : Nat → Bool), s.memOk = true →
    memOkAfter (s.writeStripes p unit ppa bs bad n) := by
  induction n with
  | zero => intro s p unit ppa bs bad h; exact h
  | succ n ih =>
    intro s p unit ppa bs bad h
    unfold State.writeStripes
    refine ite_holds memOkAfter (memOk_of_stores (State.fault_stores _ _ _ _ _ _) h) (ite_holds memOkAfter h ?_)
    dsimp only
    refine ih _ _ _ _ _ _ (memOk_putStripe _ _ _ _ _ (memOk_sameCells (sameCells_foldl _ _ ?_ s) h))
    exact fun _ _ => .of_stores (State.parityFault_stores _ _ _ _ _ _)

theorem memOkAfter_storePark (s : State) (p unit ppa : Nat) (bs : Bytes) (bad : Nat → Bool) (h : s.memOk = true) :
    memOkAfter (s.storePark p unit ppa bs bad) := by
  unfold State.storePark
  exact memOkAfter_writeStripes _ _ _ _ _ _ _ h

theorem memOkAfter_serveStripe (s : State) (p unit key ppa : Nat) (bs : Bytes) (h : s.memOk = true) :
    memOkAfter (s.serveStripe p unit key ppa bs) := by
  unfold State.serveStripe
  refine ite_holds memOkAfter (memOkAfter_mk _ (memOk_putStripe _ _ _ _ _ h)) (ite_holds memOkAfter (memOkAfter_mk _ ?_) (memOkAfter_mk _ ?_))
  · exact memOk_of_stores ((State.parityFault_stores _ _ _ _ _ _).trans (State.count_stores s _ _ _)) h
  · exact memOk_putStripe _ _ _ _ _ (memOk_of_stores (State.count_stores s _ _ _) h)

end Sys2Proof.Machine
end

