-- ==== Sys2Proof/Laws/Access.lean ====
section
/-! SUPPORT. What a main-store access that is not refused does: the conditions under which one granule is read or
written, and all that it leaves alone. -/
namespace Sys2Proof.Machine

/-- What serving an access leaves alone: the registers of the PARTITION pages, the partitions, the Clapper and the tables of the
units are as before. -/
structure Served (s u : State) : Prop where
  parts : u.parts = s.parts
  clap : u.clap = s.clap
  reh : u.reh = s.reh
  sched : u.sched = s.sched
  script : u.script = s.script
  splicer : u.splicer = s.splicer
  tele : u.tele = s.tele
  units : u.units = s.units
  ctl : u.stores.ctl = s.stores.ctl
  regs : ∀ p off, p < 16 → off < 4096 → u.rd (pgPart p) off = s.rd (pgPart p) off

theorem Served.refl (s : State) : Served s s := ⟨rfl, rfl, rfl, rfl, rfl, rfl, rfl, rfl, rfl, fun _ _ _ _ => rfl⟩

theorem Served.trans {a b c : State} (h : Served a b) (k : Served b c) : Served a c :=
  ⟨k.parts.trans h.parts, k.clap.trans h.clap, k.reh.trans h.reh, k.sched.trans h.sched, k.script.trans h.script,
    k.splicer.trans h.splicer, k.tele.trans h.tele, k.units.trans h.units, k.ctl.trans h.ctl,
    fun p off hp ho => (k.regs p off hp ho).trans (h.regs p off hp ho)⟩

/-- A write to a page below the PARTITION pages, or to the DIE2DIE page. -/
theorem Served.wr (s : State) {pg off : Nat} (v : Word) (h : pg < 0x200 ∨ pg = 0x300) (ho : off < 4096) :
    Served s (s.wr pg off v) :=
  ⟨rfl, rfl, rfl, rfl, rfl, rfl, rfl, rfl, rfl, fun p o hp hq => State.rd_wr_ne s pg off v (by unfold rk pgPart; omega)⟩

theorem Served.count (s : State) {pg off : Nat} (n : Nat) (h : pg < 0x200 ∨ pg = 0x300) (ho : off < 4096) :
    Served s (s.count pg off n) := Served.wr s _ h ho

theorem Served.profile (s : State) (p : Nat) (f : Prof → Prof) : Served s (s.profile p f) :=
  ⟨rfl, rfl, rfl, rfl, rfl, rfl, rfl, rfl, rfl, fun _ _ _ _ => rfl⟩

theorem Served.emit (s : State) (o : Output) : Served s (s.emit o) :=
  ⟨rfl, rfl, rfl, rfl, rfl, rfl, rfl, rfl, rfl, fun _ _ _ _ => rfl⟩

theorem Served.timeRead (s : State) {pg : Nat} (h : pg < 0x200) : Served s (s.timeRead pg) := by
  unfold State.timeRead
  refine Served.trans ?_ (Served.count _ 1 (.inl h) (by omega))
  refine Served.trans ?_ (Served.count _ 1 (.inl h) (by omega))
  exact ⟨rfl, rfl, rfl, rfl, rfl, rfl, rfl, rfl, rfl, fun _ _ _ _ => rfl⟩

theorem Served.snoopFor (s : State) (q : Requester) (g : Nat) (wr : Bool) : Served s (s.snoopFor q g wr) := by
  unfold State.snoopFor
  refine ite_holds (Served s) (Served.refl s) ?_
  refine Served.trans ?_ (Served.emit _ _)
  refine Served.trans ?_ (Served.count _ 1 (.inr rfl) (by omega))
  exact ⟨rfl, rfl, rfl, rfl, rfl, rfl, rfl, rfl, rfl, fun _ _ _ _ => rfl⟩

theorem find?_same {α : Type} {f g : α → Bool} (l : List α) (h : ∀ x ∈ l, f x = g x) : l.find? f = l.find? g := by
  induction l with
  | nil => rfl
  | cons a r ih =>
    have hr := ih fun x hx => h x (List.mem_cons_of_mem _ hx)
    simp only [List.find?_cons, h a (List.mem_cons_self ..), hr]

theorem Served.ownerMain {s u : State} (h : Served s u) (pa : Nat) : u.ownerMain pa = s.ownerMain pa := by
  unfold State.ownerMain
  refine find?_same _ fun p hp => ?_
  have h16 : p < 16 := by simpa using hp
  have r := fun off ho => h.regs p off h16 ho
  simp only [State.msBase, State.msSize, State.msChunks, State.ctxFirst, State.ctxCount, State.rdn, r 0x48 (by omega), r 0x54 (by omega), r 0x58 (by omega)]
  rfl

theorem State.ownerMain_of_reg {s u : State} (h : u.reg = s.reg) (pa : Nat) : u.ownerMain pa = s.ownerMain pa := by
  simp only [State.ownerMain, State.msBase, State.msSize, State.msChunks, State.ctxFirst, State.ctxCount, State.rdn, State.rd, h]
  rfl

theorem State.msBase_of_reg {s u : State} (h : u.reg = s.reg) (p : Nat) : u.msBase p = s.msBase p := by
  simp only [State.msBase, State.rd, h]

theorem pgMag_low (l : Nat) (h : l < 32) : pgMag (l / 4) < 0x200 := by unfold pgMag; omega

theorem linkOf_lt (pa : Nat) : linkOf pa < 32 := Nat.mod_lt _ (by omega)

/-- The stage and its controller deliver a granule that is whole, with no injection armed. -/
theorem State.serveRead_ok (a : State) (q : Requester) (g : Nat) (hb : a.badMainAt g = 0) (hi : a.reh.live = []) (hc : q.clsA = false) :
    ∃ x, a.serveRead q g = (none, x) ∧ Served a x ∧ x.stores = a.stores := by
  have hl := pgMag_low _ (linkOf_lt (g * 64))
  have ht : ∀ x : State, x.reh = a.reh → ∀ pg, x.takeInject pg = (none, x) := fun x hx pg => by
    simp [State.takeInject, hx, hi]
  have hb' : ∀ x : State, x.stores = a.stores → x.badMainAt g = 0 := fun x hx => by rw [State.badMainAt, hx]; exact hb
  have hs : Served a (((a.count (pgMag (linkOf (g * 64) / 4)) 0x48 1).profile q.p fun f => { f with mem := f.mem + 1 }).timeRead
      (pgMag (linkOf (g * 64) / 4))) := by
    refine Served.trans ?_ (Served.timeRead _ hl)
    refine Served.trans ?_ (Served.profile _ _ _)
    exact Served.count a 1 (.inl hl) (by omega)
  have hst : (((a.count (pgMag (linkOf (g * 64) / 4)) 0x48 1).profile q.p fun f => { f with mem := f.mem + 1 }).timeRead
      (pgMag (linkOf (g * 64) / 4))).stores = a.stores := rfl
  unfold State.serveRead
  simp only [hc, Bool.false_eq_true, if_false]
  generalize ((a.count (pgMag (linkOf (g * 64) / 4)) 0x48 1).profile q.p fun f => { f with mem := f.mem + 1 }).timeRead
      (pgMag (linkOf (g * 64) / 4)) = x at *
  rw [hb' x hst, if_pos rfl, ht x hs.reh]
  exact ⟨x, rfl, hs, hst⟩

/-- One granule is delivered: its owner reads it over a link that is up, it is whole, and no injection is armed. -/
theorem State.readGran_ok (s : State) (q : Requester) (g : Nat) (ho : s.ownerMain (g * 64) = some q.p)
    (hp : (s.part q.p).heldForScrub = false) (hu : (s.ctl (linkOf (g * 64) / 4)).up.testBit (linkOf (g * 64) % 4) = true)
    (hb : s.badMainAt g = 0) (hr : s.stores.reported = []) (hi : s.reh.live = []) (hc : q.clsA = false) :
    ∃ u, s.readGran q g = (none, u) ∧ Served s u ∧ u.stores = s.stores := by
  have hs := Served.snoopFor s q g false
  have hst := State.snoopFor_stores s q g false
  unfold State.readGran
  generalize s.snoopFor q g false = a at *
  have ho' : a.ownerMain (g * 64) = some q.p := (hs.ownerMain _).trans ho
  have hp' : (a.part q.p).heldForScrub = false := by rw [State.part, hs.parts]; exact hp
  have hu' : (a.ctl (linkOf (g * 64) / 4)).up.testBit (linkOf (g * 64) % 4) = true := by
    rw [State.ctl, hst]; exact hu
  have hr' : a.stores.reported = [] := by rw [hst]; exact hr
  obtain ⟨x, e, hx, hxs⟩ := a.serveRead_ok q g (by rw [State.badMainAt, hst]; exact hb) (by rw [hs.reh]; exact hi) hc
  simp only [ho', hp', hu', hr', ne_eq, not_true_eq_false, decide_false, Bool.or_self, Bool.false_eq_true, if_false, Bool.not_true,
    List.contains_nil]
  exact ⟨x, e, hs.trans hx, hxs.trans hst⟩

/-- Granules that are all deliverable are all read. -/
def State.readable (s : State) (q : Requester) (g n : Nat) : Prop :=
  (s.part q.p).heldForScrub = false ∧ s.reh.live = [] ∧ q.clsA = false ∧ s.stores.reported = []
  ∧ ∀ k, k < n → s.ownerMain ((g + k) * 64) = some q.p ∧ (s.ctl (linkOf ((g + k) * 64) / 4)).up.testBit (linkOf ((g + k) * 64) % 4) = true
    ∧ s.badMainAt (g + k) = 0

theorem State.readGrans_ok (q : Requester) (n : Nat) : ∀ (s : State) (g : Nat), s.readable q g n →
    ∃ u, s.readGrans q g n = (none, u) ∧ Served s u ∧ u.stores = s.stores := by
  induction n with
  | zero => exact fun s g _ => ⟨s, rfl, Served.refl s, rfl⟩
  | succ n ih =>
    intro s g ⟨hp, hi, hc, hr, h⟩
    obtain ⟨h0, h1, h2⟩ := h 0 (by omega)
    obtain ⟨u, e, hs, hst⟩ := s.readGran_ok q g h0 hp h1 h2 hr hi hc
    obtain ⟨v, e', hs', hst'⟩ := ih u (g + 1) ⟨by rw [State.part, hs.parts]; exact hp, by rw [hs.reh]; exact hi, hc, by rw [hst]; exact hr, fun k hk => by
      obtain ⟨a, b, c⟩ := h (k + 1) (by omega)
      rw [show g + (k + 1) = g + 1 + k by omega] at a b c
      exact ⟨(hs.ownerMain _).trans a, by rw [State.ctl, hst]; exact b, by rw [State.badMainAt, hst]; exact c⟩⟩
    exact ⟨v, by rw [State.readGrans, e]; exact e', hs.trans hs', hst'.trans hst⟩

/-- A read of a partition's own bytes delivers them. -/
theorem State.load_ok (s : State) (q : Requester) (a n : Nat)
    (h : s.readable q ((s.msBase q.p + a) / 64) (granCount (s.msBase q.p + a) n)) :
    ∃ u, s.load q a n = (.ok (s.rawMain (s.msBase q.p + a) n), u) ∧ Served s u ∧ u.stores = s.stores := by
  obtain ⟨u, e, hs, hst⟩ := State.readGrans_ok q _ s _ h
  refine ⟨u, ?_, hs, hst⟩
  rw [State.load, e, State.rawMain, ← hst]
  rfl

/-- The stage and its controller write bytes within one granule; a part of a granule meets no poison. -/
theorem State.serveWrite_ok (a : State) (q : Requester) (k pa : Nat) (bs : Bytes) (hb : a.badMainAt (pa / 64) = 0) (hc : q.clsA = false) :
    ∃ x, a.serveWrite q k pa bs = (none, ((x.setBadMain (pa / 64) 0).setMainTag (pa / 64) k).pokeMain pa bs)
      ∧ Served a x ∧ x.stores = a.stores := by
  have hl := pgMag_low _ (linkOf_lt (pa / 64 * 64))
  have h1 : Served a ((a.count (pgMag (linkOf (pa / 64 * 64) / 4)) 0x4C 1).profile q.p fun f => { f with mem := f.mem + 1 }) :=
    (Served.count a 1 (.inl hl) (by omega)).trans (Served.profile _ _ _)
  unfold State.serveWrite
  simp only [hb, hc, ne_eq, not_true_eq_false, decide_false, Bool.and_false, Bool.false_eq_true, if_false]
  refine ⟨_, rfl, ?_⟩
  exact ite_holds (fun x : State => Served a x ∧ x.stores = a.stores) ⟨h1, rfl⟩ ⟨h1.trans (Served.count _ _ (.inl hl) (by omega)), rfl⟩

/-- What a write of bytes within one granule leaves. -/
theorem Served.poke {s x : State} (h : Served s x) (hx : x.stores = s.stores) (g k pa : Nat) (bs : Bytes) :
    Served s (((x.setBadMain g 0).setMainTag g k).pokeMain pa bs)
      ∧ (((x.setBadMain g 0).setMainTag g k).pokeMain pa bs).stores.main = msetMany memDefault s.stores.main pa bs
      ∧ (((x.setBadMain g 0).setMainTag g k).pokeMain pa bs).stores.reported = s.stores.reported
      ∧ ∀ g', s.badMainAt g' = 0 → (((x.setBadMain g 0).setMainTag g k).pokeMain pa bs).badMainAt g' = 0 := by
  refine ⟨h.trans ⟨rfl, rfl, rfl, rfl, rfl, rfl, rfl, rfl, rfl, fun _ _ _ _ => rfl⟩, by rw [← hx]; rfl, by rw [← hx]; rfl, fun g' hg => ?_⟩
  show mget (fun _ => 0) (mset (fun _ => 0) x.stores.badMain g 0) g' = 0
  by_cases e : g' = g
  · subst e; exact mget_mset_same (fun _ => 0) x.stores.badMain g' 0
  · refine (mget_mset_ne (fun _ => 0) x.stores.badMain 0 e).trans ?_
    rw [hx]; exact hg

/-- A write of bytes within one granule: its owner writes it over a link that is up, and a part of a granule meets no poison. -/
theorem State.writeGran_ok (s : State) (q : Requester) (pa : Nat) (bs : Bytes) (ho : s.ownerMain pa = some q.p)
    (hp : (s.part q.p).heldForScrub = false)
    (hu : (s.ctl (linkOf (pa / 64 * 64) / 4)).up.testBit (linkOf (pa / 64 * 64) % 4) = true)
    (hb : s.badMainAt (pa / 64) = 0) (hr : s.stores.reported = []) (hc : q.clsA = false) :
    ∃ u, s.writeGran q pa bs = (none, u) ∧ Served s u ∧ u.stores.main = msetMany memDefault s.stores.main pa bs
      ∧ u.stores.reported = s.stores.reported ∧ ∀ g, s.badMainAt g = 0 → u.badMainAt g = 0 := by
  have hs := Served.snoopFor s q (pa / 64) true
  have hst := State.snoopFor_stores s q (pa / 64) true
  unfold State.writeGran
  generalize s.snoopFor q (pa / 64) true = a at *
  have ho' : a.ownerMain pa = some q.p := (hs.ownerMain _).trans ho
  have hp' : (a.part q.p).heldForScrub = false := by rw [State.part, hs.parts]; exact hp
  have hu' : (a.ctl (linkOf (pa / 64 * 64) / 4)).up.testBit (linkOf (pa / 64 * 64) % 4) = true := by
    rw [State.ctl, hst]; exact hu
  have hr' : a.stores.reported = [] := by rw [hst]; exact hr
  obtain ⟨x, e, hx, hxs⟩ := a.serveWrite_ok q (a.keyOf q.p) pa bs (by rw [State.badMainAt, hst]; exact hb) hc
  simp only [ho', hp', hu', hr', e, ne_eq, not_true_eq_false, decide_false, Bool.or_self, Bool.false_eq_true, if_false, Bool.not_true,
    List.contains_nil]
  exact ⟨_, rfl, (hs.trans hx).poke (hxs.trans hst) _ _ _ _⟩

theorem onErr_none {ε α : Type} (s : State) (f : ε → State → α) (k : State → α) : onErr (none, s) f k = k s := rfl
theorem onExc_ok {ε α β : Type} (a : α) (s : State) (f : ε → State → β) (k : α → State → β) : onExc (.ok a, s) f k = k a s := rfl
theorem onOk_true {α : Type} (s : State) (f k : State → α) : onOk (true, s) f k = k s := rfl
theorem onSome_some {α β : Type} (a : α) (s : State) (f : State → β) (k : α → State → β) : onSome (some a, s) f k = k a s := rfl

/-- A copy of one whole granule between two aligned places ends. -/
theorem State.copyLoop_granule (s : State) (q : Requester) (c a b : Nat) (ha : a % 64 = 0) (hb : b % 64 = 0)
    (hr : s.readable q (a / 64) 1) (ho : s.ownerMain b = some q.p)
    (hu : (s.ctl (linkOf (b / 64 * 64) / 4)).up.testBit (linkOf (b / 64 * 64) % 4) = true) (hg : s.badMainAt (b / 64) = 0) :
    ∃ u, s.copyLoop q c a b 64 0 (a / 64) (64 / 64 + 2) = (.done, u) := by
  have hi : ∀ pg, s.takeInject pg = (none, s) := fun pg => by simp [State.takeInject, hr.2.1]
  obtain ⟨r0, r1, r2⟩ := hr.2.2.2.2 0 (by omega)
  obtain ⟨v, ev, hv, hst⟩ := s.readGran_ok q (a / 64) r0 hr.1 r1 r2 hr.2.2.2.1 hr.2.1 hr.2.2.1
  obtain ⟨w, ew, _⟩ := v.writeGran_ok q b (v.rawMain a 64) ((hv.ownerMain _).trans ho) (by rw [State.part, hv.parts]; exact hr.1)
    (by rw [State.ctl, hst]; exact hu) (by rw [State.badMainAt, hst]; exact hg) (by rw [hst]; exact hr.2.2.2.1) hr.2.2.1
  have h1 : min (64 - (b + 0) % 64) (64 - 0) = 64 := by omega
  have h2 : (a + 0) / 64 = a / 64 := rfl
  have h3 : (a + 0 + 64 - 1) / 64 = a / 64 := by omega
  refine ⟨w.modChan c fun k => { k with done := 0 + 64 }, ?_⟩
  rw [show 64 / 64 + 2 = 2 + 1 from rfl, State.copyLoop, if_neg (by omega), hi, onErr_none]
  dsimp only
  rw [h1, h2, h3, Nat.sub_self, if_neg (by simp [List.range_succ]), State.readSrc, if_neg (by simp), ev, onErr_none, State.readSrc,
    onErr_none, Nat.add_zero, Nat.add_zero, ew, onErr_none, if_neg (by simp), State.copyLoop, if_pos (by omega)]

end Sys2Proof.Machine
end

