-- ==== Sys2Proof/WellFormed.lean ====
section
/-! DEFINITION. Well-formed commands: every operand lies in the range that its field, message or bus has. -/
namespace Sys2Proof

open Machine

/-- The main store's physical addresses (R172). -/
def mainSpace : Nat := 192 * 2 ^ 30

/-- A 64-bit figure: an instant, an address, a tick number. -/
def wide (n : Nat) : Bool := decide (n < 2 ^ 64)

def word32 (n : Nat) : Bool := decide (n < 2 ^ 32)

/-- A request record's fields (R42). -/
def Machine.Req.wf (r : Req) : Bool :=
  word32 r.seq && decide (r.opcode < 256) && decide (r.cls < 256) && decide (r.flags < 2 ^ 16) && wide r.tag
  && word32 r.handle && word32 r.len0 && wide r.addr0 && wide r.addr1 && word32 r.len1 && word32 r.arg0
  && word32 r.arg1 && word32 r.arg2 && word32 r.arg3 && word32 r.rsvd

/-- A protocol header's fields (R279). -/
def Machine.Frame.wf (f : Frame) : Bool :=
  decide (f.ver < 16) && decide (f.typ < 256) && decide (f.kind < 256) && decide (f.flags < 256) && decide (f.src < 2 ^ 16)
  && decide (f.dst < 2 ^ 16) && decide (f.conv < 2 ^ 16) && decide (f.part < 256) && decide (f.rsvd < 256)
  && word32 f.epoch && word32 f.peerEpoch && word32 f.seq && word32 f.ack && wide f.sack && decide (f.credit < 2 ^ 16)
  && wide f.msg && word32 f.offset && word32 f.msgLen && decide (f.payload.length ≤ 8192)

/-- A protected frame; the packet number is an extended one of 64 bits (R274). -/
def Machine.RxFrame.wf (f : RxFrame) : Bool := wide f.inst && wide f.pn && f.f.wf

/-- A clear salt frame (R275). -/
def Machine.SaltFrame.wf (f : SaltFrame) : Bool := wide f.inst && decide (f.src < 2 ^ 16) && decide (f.salt < 2 ^ 128)

/-- An admission message (R238). -/
def Machine.DoeMsg.wf (m : DoeMsg) : Bool :=
  decide (m.msg < 256) && decide (m.part < 256) && decide (m.status < 2 ^ 16) && decide (m.payload.length < 2 ^ 16)

/-- A CXL.mem request moves one 64-byte line (R230). -/
def Machine.MemReq.wf (m : MemReq) : Bool := wide m.off && (!m.write || m.data.length = 64)

/-- A PTP Sync (R272). -/
def Machine.SyncMsg.wf (m : SyncMsg) : Bool :=
  decide (m.domain < 256) && wide m.time && decide (-(2 ^ 63) ≤ m.offset) && decide (m.offset < 2 ^ 63)

def Machine.AnnounceMsg.wf (m : AnnounceMsg) : Bool := decide (m.domain < 256) && wide m.pathDelay

/-- The units that a screen test can fail (R390). -/
def Machine.ScreenResult.wf (r : ScreenResult) : Bool :=
  r.primeFailed.all (fun n => decide (n < 224)) && r.drawFailed.all (fun n => decide (n < 32))
  && r.focusFailed.all (fun n => decide (n < 16)) && word32 r.other

/-- A reading of the sensors and meters (R371, R376). -/
def Machine.SensorSample.wf (s : SensorSample) : Bool :=
  decide (-256 ≤ s.tj) && decide (s.tj < 256) && decide (-256 ≤ s.inlet) && decide (s.inlet < 256)
  && decide (-256 ≤ s.outlet) && decide (s.outlet < 256) && decide (s.feedA.volt < 2 ^ 16) && decide (s.feedA.amp < 2 ^ 16)
  && decide (s.feedB.volt < 2 ^ 16) && decide (s.feedB.amp < 2 ^ 16) && decide (s.pinMs < 2 ^ 16)

/-- Each module of the link reaches one of three outcomes (R224). -/
def Machine.TrainResult.wf (r : TrainResult) : Bool := decide (r.m0 ≤ 2) && decide (r.m1 ≤ 2) && decide (r.saltD < 2 ^ 128)

/-- A debug access lies inside its target (R358). -/
def Machine.DebugTarget.wf (t : DebugTarget) (n : Nat) : Bool :=
  match t with
  | .mainStore pa => decide (pa + n ≤ mainSpace)
  | .parkTier ppa => decide (ppa + n ≤ 512 * 2 ^ 30)
  | .unitStore _ off => decide (off + n ≤ 2 ^ 32)

/-- Every operand of the command lies in its range. -/
def Instr.wf (i : Instr) : Bool :=
  match i with
  | .slate inst => wide inst
  | .clapEdge inst _ => wide inst
  | .holdoverSlate inst => wide inst
  | .slateFrame inst f => wide inst && f.wf
  | .predictedSlate inst => wide inst
  | .reelLoad _ slot r => decide (slot < 4096) && r.wf
  | .reelLoadComplete _ slot => decide (slot < 4096)
  | .reelUnload _ slot r => decide (slot < 4096) && r.wf
  | .reelUnloadEffect _ handle => decide (handle ≤ 1024)
  | .reelResourcesFree _ handle => decide (handle ≤ 1024)
  | .batchRun _ slot r => decide (slot < 4096) && r.wf
  | .nop _ slot r => decide (slot < 4096) && r.wf
  | .badOpcode _ slot r => decide (slot < 4096) && r.wf
  | .ctxAdmit _ slot r => decide (slot < 4096) && r.wf
  | .ctxStep _ slot r => decide (slot < 4096) && r.wf
  | .ctxCancel _ slot r => decide (slot < 4096) && r.wf
  | .ctxPark _ slot r => decide (slot < 4096) && r.wf
  | .ctxResume _ slot r => decide (slot < 4096) && r.wf
  | .parkCopyDone idx _ => decide (idx < 2 ^ 20)
  | .resumeCopyDone idx _ => decide (idx < 2 ^ 20)
  | .contextExpiry idx => decide (idx < 2 ^ 20)
  | .cellParityHalt _ _ addr => wide addr
  | .pipeFaultHalt _ _ addr => wide addr
  | .splicerChannelHalt _ _ _ _ addr => wide addr
  | .telecineContextHalt _ _ addr => wide addr
  | .pictureDone _ n | .sliceEmit _ n => wide n
  | .decodePictureStart x | .encodePictureStart x => wide x.inst
  | .cueEdge _ inst => wide inst
  | .counterBurnDone _ burns => decide (burns.length ≤ 65)
  | .narrowAccess _ addr bytes => decide (addr + bytes.length ≤ 2 ^ 24 + 2 ^ 16) && decide (1 ≤ bytes.length)
  | .screenTestDone r => r.wf
  | .evaluationSlate s => decide (s.avg < 2 ^ 16) && decide (s.peak < 2 ^ 16)
  | .junctionSample s => s.wf
  | .thermalTrip tj => decide (-256 ≤ tj) && decide (tj < 256)
  | .linkTraining r => r.wf
  | .hdmCommit _ base size => wide base && wide size
  | .cxlMemAccess m => m.wf
  | .getReport inst m => wide inst && m.wf
  | .report inst => wide inst
  | .bind inst m => wide inst && m.wf
  | .unbind m => m.wf
  | .getState m => m.wf
  | .salt f => f.wf
  | .openFrame f => f.wf
  | .openAck f => f.wf
  | .data f => f.wf
  | .ack f => f.wf
  | .probe f => f.wf
  | .close f => f.wf
  | .closeAck f => f.wf
  | .reset f => f.wf
  | .conversationOpenRequest _ kind conv peer _ => decide (1 ≤ kind) && decide (kind ≤ 7) && decide (conv < 2 ^ 16) && decide (peer < 2 ^ 16)
  | .conversationCloseRequest _ kind conv peer => decide (1 ≤ kind) && decide (kind ≤ 7) && decide (conv < 2 ^ 16) && decide (peer < 2 ^ 16)
  | .ptpSync inst m => wide inst && m.wf
  | .takeLate ch t => decide (ch < 2 ^ 16) && wide t
  | .takeFilled ch t => decide (ch < 2 ^ 16) && wide t
  | .contMessage inst => wide inst
  | .takeReleaseSensed inst => wide inst
  | .claimHoldoffExpiry inst => wide inst
  | .debugMemoryAccess _ t d => t.wf d.length
  | .parityWr _ x => decide (x.pa < mainSpace)
  | .backInvalidateResponse granule => decide (granule < mainSpace / 64)
  | .ptpAnnounce m => m.wf
  | .clapLost | .slateFrameLost | .clapperConfigWrite _ _ | .classAReelStart | .itemStart _ | .itemDone _ _
    | .mixContribution _ | .closedValues _ | .splicerFiring _ | .splicerListDone _ | .chCmdResume _ | .chCmdAbort _
    | .ctxCmdResume _ | .ctxCmdRestartIdr _ | .linkDown _ | .retrain _ | .retrainDone _
    | .addrErr _ _ | .diagGo _ _ | .scrub _ | .tenantChange _ | .scrubShareDone _ _ | .scrubDone _ | .prst _ | .partitionReset _
    | .prstDone _ | .partitionEnable _ _ | .fence _ _ | .enable _ _ | .rst _ _ | .resetDone _ | .freeze _ _
    | .ownerLock _ _ | .blkEvtSet _ _ | .faultLatchRelease _ _ | .rcRead _ _ | .registerWrite _ _ _ | .snap | .release
    | .mapCrcClr _ | .katGo | .certDataRead | .warmRst _ | .warmReset | .mrstN | .powerOn _ | .startupStageDone _
    | .fwFault | .scriptLate | .firmwareRestarted | .verify | .install | .fwInstalled _ | .svnCommit _ | .enter
    | .wrapped | .wake | .woken | .domainReady _ | .tClear _ | .feedPresent _ | .feedBack _ | .feedLost _ | .holdup
    | .feedOc _ | .domainOc _ | .refclkLost | .refclkBack | .clock _ | .pmbusSilent | .operation _ _ | .clearFaults
    | .capability | .statusWord | .statusInput | .statusTemperature | .statusCml | .readVin | .readIin
    | .readTemperature1 | .readTemperature2 | .readTemperature3 | .readPin | .pmbusRevision | .mfrId | .mfrModel
    | .mfrSerial | .mfrPowerCap _ _ | .mfrFeedA | .mfrFeedB | .mfrLevel | .mfrStart | .pmbusUnsupported _
    | .flitCrcError _ | .ideFail | .h2dSnoop | .bound _ | .unbound _ | .doeAbort | .portLinkUp _ | .portLinkDown _
    | .saltAnnounce _ | .macStorm _ | .rto _ | .ackDelay _ | .keepalive _ | .silence _ | .openRetry _ | .forget _
    | .ptpLost | .rushes _ | .verdictNotice | .bindingNotice | .checkpoint | .parkImage | .checkpointRelease
    | .takeFault | .grave _ | .take | .stand | .yieldTake | .handover | .resync | .cancelHandover | .cancelTake
    | .handoverSlate _ | .contextRestore | .cutoverGapEnd | .cutoverSlow | .arm _ | .rehearsalFiring _ | .dump
    | .dumpDone _ | .clear | .tapInstruction _ | .debugOpen _ | .debugClose _ | .takeSenseLow
    | .mrstNRelease | .hot _ _ | .droppedFrame _ _ | .alertResponse | .rngFail | .rngOk | .fwVerified | .katBlockDone => true

end Sys2Proof
end

