-- ==== Sys2Proof/Tests/Slice0.lean ====
section
/-! SUPPORT. Small checks on single commands, and for each statement with hypotheses a state and operands that meet them. -/
namespace Sys2Proof.Tests

open Sys2Proof.Machine

-- one theorem after the other: many at once need more memory
set_option Elab.async false

/-! ### Small states -/

/-- A running module whose Clapper issues slates, with the console open and every link of the main store up. -/
def live : State :=
  let s := { State.reset with boot := { State.reset.boot with stage := 7 }, clap := { State.reset.clap with run := true, ever := true }
                              sec := { State.reset.sec with consoleOpen := true } }
  (List.range 8).foldl (fun s m => s.modCtl m fun c => { c with up := 15 }) s

/-- A register as written and in force. -/
def reg (s : State) (pg off v : Nat) : State := (s.wr pg off (word v)).wrForce pg off (word v)

/-! ### The Clapper and the time base -/

/-- Slates from source n: 1 the Clapper's edges, 2 slate frames. -/
def sourced (n : Nat) : State := reg live pgClapper 0x40 (2 * n + 1)

theorem witness_StepRunsFront : ({ State.reset with pending := [.clapLost] } : State).pending = .clapLost :: []
    ∧ State.reset.pending = [] := by decide

theorem witness_QueueFrame : exec .clapLost State.reset = .next State.reset.begin := rfl

theorem witness_invariants : State.reset.memOk = true ∧ State.reset.regsOk = true ∧ State.reset.convsOk = true
    ∧ step State.reset = .next State.reset := ⟨rfl, rfl, rfl, rfl⟩

theorem witness_TakeDriven : ∃ t, exec .clapLost State.reset = .next t ∧ State.reset.twin.drive = false ∧ t.twin.drive = false :=
  ⟨_, rfl, rfl, rfl⟩

def expecting (e : Nat) (taken : Bool) : State :=
  let s := sourced 1
  { s with clap := { s.clap with haveEdge := true, winTaken := taken, expect := e } }

def timed : State := { live with clap := { live.clap with due := some 900, first := false } }

/-- The slate that is due; an edge without a window, at the window's two ends, outside it, and a second one in it. -/
theorem witness_ClapperSlates :
    (timed.slateDue 885 = true ∧ timed.slateDue 915 = true ∧ timed.slateDue 916 = false ∧ timed.src ≠ 2
      ∧ timed.clap.first = false)
    ∧ ((sourced 1).slatesOn = true ∧ (sourced 1).src = 1 ∧ (sourced 1).reh.clapSkip = false ∧ (sourced 1).clap.haveEdge = false)
    ∧ (let s := expecting 100000 false
       s.slatesOn = true ∧ s.src = 1 ∧ s.clap.haveEdge = true ∧ s.clap.winTaken = false ∧ s.clap.due = none
       ∧ s.winT = 12000 ∧ s.clap.expect ≤ 88000 + s.winT ∧ 112000 ≤ s.clap.expect + s.winT ∧ 87999 + s.winT < s.clap.expect
       ∧ s.clap.expect + s.winT < 112001)
    ∧ (expecting 100000 true).clap.winTaken = true := by decide +kernel

def missed (n : Nat) : State :=
  let s := sourced n
  { s with clap := { s.clap with first := false, haveEdge := true, expect := 100000, misses := s.missLimit } }

theorem witness_ClapperSlates_misses :
    ((missed 1).slatesOn = true ∧ (missed 1).clap.due = none ∧ (missed 1).src = 1 ∧ (missed 1).clap.haveEdge = true
      ∧ (missed 1).clap.expect + (missed 1).winT ≤ 112000)
    ∧ ((missed 2).src = 2 ∧ (missed 2).clap.first = false ∧ (missed 2).instantOf (missed 2).predictedNs ≤ 6000000 + 2 * tUs)
    ∧ ((missed 1).clap.lost = false ∧ (missed 1).missLimit ≤ (missed 1).clap.misses)
    ∧ ((missed 2).clap.lost = false ∧ (missed 2).missLimit ≤ (missed 2).clap.misses) := by decide +kernel

/-- A period in range, and one below it. -/
theorem witness_ClapperConfig :
    live.writable pgClapper (clapOff .period) 250 = true ∧ live.clapRefuses .period 250 = false ∧ live.slatesOn = true
    ∧ live.clapRefuses .period 20000 = false
    ∧ live.writable pgClapper (clapOff .period) 249 = true ∧ live.clapRefuses .period 249 = true ∧ live.clapRefuses .period 20001 = true
    ∧ live.writable pgClapper (clapOff .ctrl) 1 = true ∧ live.clapRefuses .ctrl 1 = false ∧ field 1 1 2 ≠ 3 := by decide +kernel

/-- An open port q with its link up, a partner's key and a salt of its own; PORT_CTRL is `ctrl`. -/
def joined (q ctrl : Nat) (s : State) : State :=
  (reg s (pgPort q) 0x40 ctrl).modPort q fun p =>
    { p with opened := true, linkUp := true, keys := [{ an := 0, salt := 1, src := 9 }], saltTx := some 1, announced := true }

/-- A member that follows slate frames of lead 5 on port 0, whose last tick was 3. -/
def member (epoch : Nat) (acc : Option (Nat × Nat × Nat × Nat × Nat)) : State :=
  let s := reg (joined 0 5 (sourced 2)) pgGlobal 0x4C 5
  { s with clap := { s.clap with first := false, num := 3, frameEpoch := epoch, accepted := acc } }

/-- A slate frame of tick 4, take epoch 7 and the given period. -/
def slateOf (period : Nat) : RxFrame :=
  { port := 0, f := { typ := tyDatagram, kind := 2, src := 5, msg := 4,
                      payload := beBytes 8 4 ++ beBytes 8 1 ++ beBytes 4 500 ++ beBytes 4 period ++ beBytes 4 7 ++ beBytes 4 0 } }

/-- A first copy, of the equal take epoch and of another period; a stale one; equal and different later copies. -/
theorem witness_SlateFrames :
    (let s := member 7 none
     s.authentic (slateOf 1000) = true ∧ (slateOf 1000).f.formed tyDatagram = true ∧ (slateOf 1000).f.kind = 2
     ∧ slateFormed (slateOf 1000).f = true ∧ s.portCtl 0 2 = true ∧ s.slatesOn = true ∧ s.src = 2 ∧ s.reh.slateSkip = false
     ∧ (slateOf 1000).f.src = s.leadId ∧ s.clap.frameEpoch ≤ beAt (slateOf 1000).f.payload 24 4 ∧ s.clap.accepted = none
     ∧ s.clap.num < (slateOf 1000).f.msg ∧ s.clap.due = none ∧ beAt (slateOf 999).f.payload 20 4 ≠ s.periodUs)
    ∧ ((member 8 none).authentic (slateOf 1000) = true
       ∧ beAt (slateOf 1000).f.payload 24 4 < (member 8 none).clap.frameEpoch)
    ∧ (let a := (4, frameNs (slateOf 1000).f.payload, 1000, 5, 7)
       (member 7 (some a)).clap.accepted = some a ∧ a.1 = (slateOf 1000).f.msg ∧ a.2.2.2.2 = beAt (slateOf 999).f.payload 24 4
       ∧ a.2.2.1 ≠ beAt (slateOf 999).f.payload 20 4 ∧ (member 7 (some a)).authentic (slateOf 999) = true) := by decide +kernel

/-- Port 1 carries PTP of domain 3. -/
def ptpState (locked : Bool) (good : Nat) : State :=
  let s := joined 1 1 (reg live (pgPort 1) 0x6C 0x301)
  { s with ptp := { s.ptp with port := some 1, locked := locked, good := good } }

theorem witness_TimeBase :
    ((ptpState false 14).ptpOn 1 3 = true ∧ (ptpState false 14).ptp.port = some 1 ∧ (ptpState false 14).ptp.locked = false
      ∧ (ptpState false 14).ptp.good < 15)
    ∧ ((ptpState false 15).ptpOn 1 3 = true ∧ 15 ≤ (ptpState false 15).ptp.good)
    ∧ (ptpState true 0).ptpOn 1 3 = true ∧ (ptpState true 0).ptp.locked = true := by decide +kernel

/-- Two edges of one instant on output 0, and a later one. -/
def cued (gap drive : Bool) : State :=
  { live with
    sched := { live.sched with
      cues := [(0, [{ level := true, slate := 2, off := 5 }, { level := false, slate := 2, off := 5 }, { level := true, slate := 9, off := 0 }])] }
    clap := { live.clap with num := 2 }
    twin := { live.twin with gap := gap, drive := drive, sense := drive } }

theorem witness_CueEdges :
    (∀ s ∈ [cued true true, cued false true, cued false false],
      ({ level := true, slate := 2, off := 5 } : Cue) ∈ s.cueQueue 0
      ∧ s.edgeDue 100000 { level := true, slate := 2, off := 5 } = true
      ∧ ∀ x ∈ s.cueQueue 0, s.edgeDue 100000 x = true → cueBefore x { level := true, slate := 2, off := 5 } = false)
    ∧ (cued true true).twin.gap = true ∧ (cued false true).cueEn = true ∧ (cued false false).cueEn = false := by decide +kernel


/-- Where the commands above do nothing, or drop their frame. -/
theorem witness_Clapper_nothing :
    (State.reset.slatesOn = false ∧ State.reset.slateDue 0 = false ∧ State.reset.ptp.locked = false ∧ State.reset.cueQueue 0 = []
      ∧ State.reset.ptpOn 1 3 = false ∧ (expecting 100000 false).clap.due ≠ some 0 ∧ 111999 < (expecting 100000 false).clap.expect + 12000)
    ∧ ((member 7 none).authentic { slateOf 1000 with f := { (slateOf 1000).f with kind := 3 } } = true)
    ∧ (let s := joined 0 1 (sourced 2)
       s.authentic (slateOf 1000) = true ∧ s.portCtl 0 2 = false)
    ∧ (let s := joined 0 5 live
       s.authentic (slateOf 1000) = true ∧ s.portCtl 0 2 = true ∧ s.src ≠ 2)
    ∧ (let s := { member 7 none with clap := { (member 7 none).clap with num := 4 } }
       s.clap.first = false ∧ (slateOf 1000).f.msg ≤ s.clap.num ∧ s.clap.accepted = none) := by decide +kernel
/-! ### Requests and reels -/

/-- Partition 1, enabled: 1 GiB of main store, 1 GiB of the park tier, 4 contexts, 8 request slots at 0 and a result ring of
16 records at 0x1000. -/
def part1 : State :=
  let w (s : State) (o v : Nat) : State := s.wr (pgPart 1) o (word v)
  let s := w (w (w (w (w (reg live pgSched 0x40 1) 0x48 0x10000) 0x4C 0x10000) 0x50 256) 0x54 0) 0x58 4
  (w (w (w s 0x64 8) 0x68 0x1000) 0x70 16).modPart 1 fun q => { q with enabled := true, bound := true }

/-- A reel image with one ATTEND item (layer 0, group 0, rank 32) and one LOGITS item over 16 tokens. -/
def reelImage : Bytes :=
  zeros 64 ++ leBytes 8 0x80 ++ leBytes 8 64 ++ zeros 48
  ++ (leBytes 2 0x200 ++ leBytes 2 0x30 ++ zeros 8 ++ List.replicate 8 255 ++ leBytes 8 0xC0 ++ zeros 4)
  ++ (leBytes 2 0x201 ++ leBytes 2 0x21 ++ zeros 8 ++ List.replicate 8 255 ++ leBytes 8 0x100 ++ zeros 4)
  ++ (zeros 3 ++ leBytes 1 2 ++ zeros 2 ++ leBytes 2 32 ++ zeros 56) ++ (zeros 8 ++ leBytes 4 16 ++ zeros 52)

def reelB : Reel := { p := 1, handle := 1, cls := 2, image := reelImage }
def reelA : Reel := { p := 1, handle := 2, cls := 1, loadTick := 3 }
def reelC : Reel := { p := 1, handle := 3, cls := 3, image := zeros 256 }

def withReels (l : List Reel) (s : State) : State := { s with sched := { s.sched with reels := l } }

/-- Context 0 of partition 1 in a state, with the geometry of the class B reel and 64 KiB of cache. -/
def ctx0 (st pos : Nat) (s : State) : State :=
  s.modDesc 0 fun d => { d with
    state := st, reel := 1, lg := 1, slotBytes := slotBytes (reelPairs reelImage) 0x11, geom := geomOf (reelPairs reelImage) 0x11
    grammar := 0xFFFF, params := zeros 0x34 ++ leBytes 1 0x11 ++ zeros 11, cacheLen := 65536, pos := pos, deadline := 5 }

/-- Parameters at address 0x2000 of partition 1: TOP_P 1.0, TTL 1, 8-bit cache formats. -/
def paramBlock : Bytes := zeros 4 ++ leBytes 4 0x3F800000 ++ zeros 2 ++ leBytes 2 0xFFFF ++ zeros 36 ++ leBytes 4 1 ++ leBytes 1 0x11 ++ zeros 11

/-- The 64 bytes of a request slot. -/
def reqBytes (r : Req) : Bytes :=
  leBytes 4 r.seq ++ leBytes 1 r.opcode ++ leBytes 1 r.cls ++ leBytes 2 r.flags ++ leBytes 8 r.tag ++ leBytes 4 r.handle
  ++ leBytes 4 r.len0 ++ leBytes 8 r.addr0 ++ leBytes 8 r.addr1 ++ leBytes 4 r.len1 ++ leBytes 4 r.arg0 ++ leBytes 4 r.arg1
  ++ leBytes 4 r.arg2 ++ leBytes 4 r.arg3 ++ leBytes 4 r.rsvd

/-- Memory that lists these bytes from an address on. -/
def cellsAt (a : Nat) (bs : Bytes) : SMap Byte :=
  match bs with
  | [] => []
  | b :: r => if b = 0 then cellsAt (a + 1) r else (a, b) :: cellsAt (a + 1) r

/-- Partition 1's table holds the request in a slot, and no other byte of the store is listed below what the state lists. -/
def asked (slot : Nat) (r : Req) (s : State) : State :=
  { s with stores := { s.stores with main := cellsAt (s.msBase 1 + 64 * slot) (reqBytes r) ++ s.stores.main } }

def loadReq : Req := { seq := 1, opcode := 0x01, cls := 2, len0 := 1 }
def unloadReq (cls handle tick : Nat) : Req := { seq := 1, opcode := 0x02, cls := cls, handle := handle, arg1 := tick }

/-- The sweep comes to the request in slot 0 and its checks answer `reason`. -/
def answers (s : State) (r : Req) (reason : Nat) : Bool := (asked 0 r s).judges 1 0 r reason

def nopReq : Req := { seq := 1, opcode := 0x3E, cls := 2 }

theorem witness_SweepOutcomes :
    answers part1 { seq := 1, opcode := 0x02, cls := 2, handle := 9 } rsReelUnknown = true
    ∧ (part1.sweeping = true ∧ part1.sweptPart 2 = false ∧ State.reset.sweeping = false)
    ∧ ((asked 0 loadReq part1).comesTo 1 0 loadReq = true ∧ loadReq ≠ nopReq)
    ∧ (let s := (asked 0 nopReq part1).wr (pgPart 1) 0x70 1
       s.comesTo 1 0 nopReq = true ∧ nopReq.seq ≠ s.shadowOf 1 0 ∧ needsScript nopReq = false
       ∧ (s.readSlot 1 0).boardFull = false ∧ (s.readSlot 1 0).room 1 = 1)
    ∧ (let s := asked 0 { nopReq with seq := 0 } part1
       s.comesTo 1 0 { nopReq with seq := 0 } = true ∧ s.shadowOf 1 0 = 0)
    ∧ (let r : Req := { seq := 1, opcode := 0x12, cls := 2 }
       let s := asked 0 r { part1 with script := { part1.script with stat := 3 } }
       s.comesTo 1 0 r = true ∧ s.scriptDown = true ∧ needsScript r = true)
    ∧ ((asked 7 nopReq part1).takesReq 1 7 nopReq = true ∧ nopReq.rsvd = 0)
    ∧ ((asked 0 { nopReq with opcode := 0x3F } part1).takesReq 1 0 { nopReq with opcode := 0x3F } = true ∧ knownOp 0x3F = false) := by
  decide +kernel

theorem witness_RequestsAccepted_reels :
    answers part1 loadReq 0 = true
    ∧ (let s := withReels [reelB, reelA, reelC] part1
       answers s (unloadReq 1 2 0) 0 = true ∧ s.findReel 1 2 = some reelA ∧ answers s (unloadReq 2 1 1) 0 = true
       ∧ s.clap.num < (unloadReq 2 1 1).tick ∧ answers s (unloadReq 2 1 0) 0 = true ∧ s.findReel 1 1 = some reelB
       ∧ (unloadReq 2 1 0).tick ≤ s.clap.num ∧ answers s { seq := 1, opcode := 0x20, cls := 3, handle := 3 } 0 = true) := by
  decide +kernel

/-- The script core runs. -/
def scripted (s : State) : State := { withReels [reelB] s with script := { s.script with stat := 2, hot := [0] } }

theorem witness_RequestsAccepted_admit :
    (let s := scripted (part1.pokeMain (part1.msBase 1 + 0x2000) paramBlock)
     answers s { seq := 1, opcode := 0x10, cls := 2, addr0 := 0x2000, len0 := 64, len1 := 16, addr1 := 0x10000, arg0 := 1 } 0 = true
     ∧ s.script.stalled = false) := by decide +kernel

theorem witness_RequestsAccepted_contexts :
    (let s := scripted (ctx0 3 0 part1)
     answers s { seq := 1, opcode := 0x11, cls := 2, len1 := 64, arg1 := 0xFFFFFFFF } 0 = true
     ∧ answers s { seq := 1, opcode := 0x13, cls := 2, arg0 := 60 } 0 = true)
    ∧ answers (scripted (ctx0 4 0 part1)) { seq := 1, opcode := 0x14, cls := 2, len1 := 16 } 0 = true := by decide +kernel

def cancelReq : Req := { seq := 1, opcode := 0x12, cls := 2, flags := 1 }

/-- A run that waits, one with a step in flight and one that is being cancelled already; none, without and with a copy. -/
theorem witness_RequestsAccepted_cancels :
    (let s := scripted (ctx0 3 0 part1)
     let running (flying : Bool) (c : Option (Nat × Nat × Nat × Bool)) : State :=
       { s with script := { s.script with runs := [{ p := 1, idx := 0, slot := 3, req := {}, reel := 1, flying := flying, cancel := c }] } }
     answers s cancelReq 0 = true ∧ s.runOf 1 0 = none ∧ cancelReq.flags.testBit 0 = true ∧ (s.desc 0).state ≠ 5
     ∧ answers (running false none) cancelReq 0 = true ∧ answers (running true none) cancelReq 0 = true
     ∧ answers (running true (some (1, 2, 3, false))) cancelReq 0 = true) := by decide +kernel

def batched (st : ItemSt) : State :=
  { withReels [reelC] part1 with sched := { (withReels [reelC] part1).sched with
      batches := [{ p := 1, slot := 2, req := { seq := 5, opcode := 0x20, cls := 3, handle := 3 } }]
      items := [{ id := 1, p := 1, cls := 3, handle := 3, idx := 0, unit := 0, page := pgPrime 0, st := st, slot := 2 }] } }

theorem witness_RequestsAccepted_batches :
    (let r : Req := { seq := 1, opcode := 0x12, cls := 3, handle := 3, arg0 := 2, arg1 := 5 }
     answers part1 r 0 = true ∧ part1.sched.batches = []
     ∧ (∀ st ∈ [ItemSt.waiting, .running, .halted], answers (batched st) r 0 = true)
     ∧ (batched .running).batchItems 1 2 ≠ []) := by decide +kernel
/-- An empty class C reel: 256 bytes signed, and the signature block. -/
def emptyReel : Bytes :=
  leBytes 4 0x4C454552 ++ leBytes 2 3 ++ [3, 0] ++ zeros 4 ++ leBytes 2 1 ++ zeros 242
  ++ leBytes 4 sigMagic ++ leBytes 2 1 ++ leBytes 2 1 ++ leBytes 8 256 ++ zeros 7280

def loading (r : Req) : State :=
  { part1 with sched := { part1.sched with loads := [{ p := 1, slot := 0, req := r, at' := 3 }] }
               clap := { part1.clap with num := 4 } }

theorem reelCheck_parts : signedLen emptyReel = 256 ∧ sigFormed emptyReel 256 = true ∧ (loading loadReq).pinned 1 = false := by
  decide +kernel

/-- A load's work is due; an image whose signature verifies passes the check, and one of another class does not. -/
theorem witness_ReelLifetime_load :
    ((loading loadReq).sched.loads.find? fun l => l.p = 1 && l.slot = 0 && decide (l.at' < (loading loadReq).clap.num))
      = some { p := 1, slot := 0, req := loadReq, at' := 3 }
    ∧ (sigVerifies 0 emptyReel 256 = true → (loading loadReq).loadCheck 1 { loadReq with cls := 3 } emptyReel 0 = 0)
    ∧ (∀ m, (loading loadReq).loadCheck 1 loadReq emptyReel m ≠ 0)
    ∧ (loading loadReq).findReel 1 1 = none := by
  obtain ⟨hl, hf, hp⟩ := reelCheck_parts
  refine ⟨by decide +kernel, fun h => ?_, fun m => ?_, by decide +kernel⟩
  · have hs : (loading loadReq).sealVerify 1 emptyReel = true := by simp [State.sealVerify, hl, hf, h, hp]
    unfold State.loadCheck
    rw [hs]
    decide +kernel
  · unfold State.loadCheck
    cases (loading loadReq).sealVerify 1 emptyReel
    · simp [rsSignature]
    · have hc : leAt emptyReel 6 1 ≠ loadReq.cls := by decide +kernel
      simp [hc, rsFormat]

theorem witness_ReelLifetime_ticks :
    (let s := withReels [reelA] { part1 with clap := { part1.clap with num := 3 } }
     s.classA = some reelA ∧ s.clap.num = reelA.loadTick ∧ reelA.takes s.clap.num = true
     ∧ (s.sched.ticks.any fun t => t.tick = s.clap.num) = false)
    ∧ (let a : Reel := { reelA with unloadAt := some 5, unloadReqs := [(0, unloadReq 1 2 5)] }
       let b : Reel := { reelB with unloadAt := some 5, unloadReqs := [(0, unloadReq 2 1 5)] }
       let s := withReels [a, b] { part1 with clap := { part1.clap with num := 5 } }
       s.findReel 1 2 = some a ∧ a.cls = 1 ∧ a.stopped = false ∧ s.findReel 1 1 = some b ∧ b.cls ≠ 1 ∧ b.unloadReqs ≠ []
       ∧ s.reelInUse b = false ∧ (ctx0 3 0 s).reelInUse b = true ∧ (ctx0 3 0 s).findReel 1 1 = some b)
    ∧ (let a : Reel := { reelA with unloadAt := some 5, stopped := true }
       (withReels [a] { part1 with clap := { part1.clap with num := 7 } }).findReel 1 2 = some a) := by decide +kernel

def copied (resume : Bool) : State :=
  { part1 with script := { part1.script with stat := 2, copies := [{ p := 1, idx := 0, slot := 0, req := {}, resume := resume }] } }

/-- The park controller's links are up, or not. -/
def copying (resume : Bool) (up : Nat) : State := (copied resume).modCtl 8 fun c => { c with up := up }

def theCopy (resume : Bool) : Copy := { p := 1, idx := 0, slot := 0, req := {}, resume := resume }

/-- Context 0 paused, its deadline 5, at second n. -/
def pausedAt (n : Nat) : State := scripted (ctx0 4 0 { part1 with clap := { part1.clap with sec := n } })

theorem witness_ContextTimers :
    ((∀ up ∈ [0, 255], (copying false up).copyInHand = some (theCopy false) ∧ (copying true up).copyInHand = some (theCopy true))
      ∧ ((copying false 255).begin.writeImage (theCopy false)).1 = none ∧ ((copying false 0).begin.writeImage (theCopy false)).1 ≠ none)
    ∧ ((∀ n ∈ [4, 5], (pausedAt n).ctxOwner 0 = some 1 ∧ (pausedAt n).scriptDown = false ∧ ((pausedAt n).part 1).enabled = true
        ∧ ((pausedAt n).begin.fetchDesc 1 0).1 = true)
       ∧ ((pausedAt 5).begin.fetchDesc 1 0).2.expired 0 = true ∧ ((pausedAt 4).begin.fetchDesc 1 0).2.expired 0 = false
       ∧ (let s := scripted (part1.pokeMain 256 [1])
          s.ctxOwner 1 = some 1 ∧ s.scriptDown = false ∧ (s.begin.fetchDesc 1 1).1 = false))
    ∧ (let s := { part1 with script := { part1.script with stat := 1, resetPending := true
                                                           runs := [{ p := 1, idx := 0, slot := 3, req := {}, reel := 1 }] } }
       s.script.stat = 1 ∧ s.script.resetPending = true ∧ s.script.runs ≠ []) := by decide +kernel

/-- The ends of a resume copy: no image, an image and its slots, and slots that cannot be written. -/
theorem witness_ContextTimers_resume :
    ((copying true 0).begin.readImage (theCopy true)).1.toOption = none
    ∧ ((copying true 255).begin.readImage (theCopy true)).1.toOption.isSome = true
    ∧ (((copying true 255).begin.readImage (theCopy true)).2.storeSlots (theCopy true) (zeros 4160)).1 = none
    ∧ ((((copying true 255).modCtl 1 fun c => { c with up := 0 }).begin.readImage (theCopy true)).2.storeSlots (theCopy true) (zeros 4160)).1 ≠ none := by
  decide +kernel

/-! ### Work -/

/-- An item of partition 1 on a unit's page. -/
def itemOn (unit page cls : Nat) (st : ItemSt) (late : Bool) : Item :=
  { id := 1, p := 1, cls := cls, handle := 1, idx := 0, unit := unit, page := page, st := st, late := late }

def working (l : List Item) : State :=
  let s := withReels [reelB] part1
  { s with sched := { s.sched with items := l } }

/-- Items of class B on a pipe and on the Splicer whose turn it is, one whose turn it is not, and class A items at their START. -/
theorem witness_WorkItems :
    (∀ u ∈ [(0x200, pgFocus 0), (0x500, pgSplicer)],
      let i := itemOn u.1 u.2 2 .waiting false
      (working [i]).item 1 = some i ∧ ((working [i]).nextOn i.page).map (fun j => j.id) = some 1)
    ∧ (let i := itemOn 0x200 (pgFocus 0) 2 .waiting false
       let s := (working [i]).modUnit (pgFocus 0) fun u => { u with residue := some 2 }
       (s.unit (pgFocus 0)).residue = some 2 ∧ (s.nextOn i.page).map (fun j => j.id) = some 1)
    ∧ (let i := itemOn 0x200 (pgFocus 0) 2 .waiting false
       let s := working [{ i with id := 2 }, i]
       s.item 1 = some i ∧ (s.nextOn i.page).map (fun j => j.id) ≠ some 1)
    ∧ (∀ late ∈ [false, true],
        let i : Item := { itemOn 0x200 (pgFocus 0) 1 .waiting late with preds := [9] }
        (working [i]).item 1 = some i ∧ ((working [i]).begin.at ((working [i]).startInst i)).canRun i = false)
    ∧ (let i : Item := itemOn 0x200 (pgFocus 0) 1 .waiting false
       (working [i]).item 1 = some i ∧ ((working [i]).begin.at ((working [i]).startInst i)).canRun i = true) := by decide +kernel

theorem witness_WorkItems_done :
    (let i := itemOn 0x300 pgCutter 2 .running false
     let s := working [i]
     s.item 1 = some i ∧ i.unit < 0x400 ∧ s.findReel i.p i.handle = some reelB
     ∧ s.begin.takeInject i.page = (none, s.begin) ∧ s.begin.runUnit i reelB [] = (.done, s.begin)
     ∧ s.begin.item 1 = some i)
    ∧ (let s := { working [itemOn 0x300 pgCutter 2 .running false] with reh := { live.reh with live := [{ entry := 0, kind := 1, page := pgCutter }] } }
       (s.begin.takeInject pgCutter).1 = some { entry := 0, kind := 1, page := pgCutter })
    ∧ (working [itemOn 5 (pgPrime 5) 2 .running false]).runningOn (pgPrime 5) = some (itemOn 5 (pgPrime 5) 2 .running false)
    ∧ (working [itemOn 0x203 (pgFocus 3) 2 .running false]).runningOn (pgFocus 3) = some (itemOn 0x203 (pgFocus 3) 2 .running false) :=
  ⟨⟨rfl, by decide, rfl, rfl, rfl, rfl⟩, rfl, rfl, rfl⟩

/-- A contribution of member 3 for tick 0 and item 2 that came by port 1, and closed values. -/
def mixMsg (closed : Bool) : InBox :=
  { port := 1, kind := 4, conv := 0, peer := 9, part := 1, msg := 0, item := 2, member := 3, closed := closed, data := [1, 2] }

def mixing (l : List (Nat × Nat × Nat × Bytes)) (closed : Bool) : State :=
  { live with links := { live.links with inbox := [mixMsg closed] }, units := { live.units with contribs := l } }

theorem witness_MixRows :
    ((mixing [] false).links.inbox.find? fun m => m.port = 1 && m.kind = 4 && m.conv = 0 && !m.closed) = some (mixMsg false)
    ∧ (mixing [] false).contribOf 0 2 3 = none ∧ (mixing [] false).mixPast 0 2 = false ∧ (mixing [] false).mixItem 0 2 = none
    ∧ (mixing [(0, 2, 3 + 256, [1, 2])] false).contribOf 0 2 3 = some (1, (mixMsg false).data)
    ∧ (mixing [(0, 2, 3 + 512, [1, 3])] false).contribOf 0 2 3 = some (2, [1, 3]) ∧ [1, 3] ≠ (mixMsg false).data
    ∧ (let s := (mixing [] false).modDesc 0 fun d => { d with step := 1 }
       s.contribOf 0 2 3 = none ∧ s.mixPast 0 2 = true ∧ State.reset.links.inbox = [])
    ∧ ((mixing [] true).links.inbox.find? fun m => m.port = 1 && m.kind = 4 && m.closed) = some (mixMsg true) := by decide +kernel

/-- The value range's and the anchor range's ends. -/
theorem witness_LedgerSums :
    [(NumVal.fin 1 0, NumVal.fin 2 0), (NumVal.fin 3 1, NumVal.fin 1 0)].Perm [(NumVal.fin 3 1, NumVal.fin 1 0), (NumVal.fin 1 0, NumVal.fin 2 0)]
    ∧ (-(2 ^ 159 : Int) ≤ -(2 ^ 159) ∧ (2 ^ 159 - 1 : Int) < 2 ^ 159 ∧ (-2048 : Int) ≤ -2048 ∧ (2047 : Int) ≤ 2047)
    ∧ (4096 ≤ leAt (zeros 21 ++ [16, 0, 0]) 20 2 ∧ 16 ≤ leAt (zeros 22 ++ [16, 0]) 22 1 ∧ leAt (zeros 23 ++ [1]) 23 1 ≠ 0) := by
  decide +kernel

theorem witness_ProductOverflow :
    2 ^ 127 ≤ (floorShift ((2 ^ 100 : Int) * 2 ^ 27) (0 + 0 - 0)).natAbs
    ∧ 2 ^ 127 ≤ (floorShift ((-(2 ^ 100) : Int) * 2 ^ 27) (0 + 0 - 0)).natAbs
    ∧ (floorShift ((2 ^ 127 - 1 : Int) * 1) (0 + 0 - 0)).natAbs < 2 ^ 127 := by decide +kernel


/-! ### More of the same statements -/

/-- A load of two 4 KiB units at 0x20000 of partition 1, where the image stands. -/
def stored (cls : Nat) : State :=
  let s := loading { loadReq with cls := cls, len0 := 2, addr0 := 0x20000 }
  { s with stores := { s.stores with main := cellsAt (s.msBase 1 + 0x20000) emptyReel } }

def storedReq (cls : Nat) : Req := { loadReq with cls := cls, len0 := 2, addr0 := 0x20000 }

def storedRead (cls : Nat) : Option (Bytes × Nat) × State :=
  let s := stored cls
  ({ s.begin with sched := { s.sched with loads := s.sched.loads.filter fun (x : Load) => !(x.p = 1 && x.slot = 0) } } : State).readReel 1 (storedReq cls)

def storedImage (cls : Nat) : Bytes × Nat := (storedRead cls).1.getD ([], 0)

theorem stored_facts : (storedRead 3).1.isSome = true ∧ signedLen (storedImage 3).1 = 256 ∧ sigFormed (storedImage 3).1 256 = true
    ∧ (storedRead 3).2.pinned 1 = false := by decide +kernel

/-- A stored image of the load's class whose signature verifies passes; one of another class does not; an address past the
partition's gives no image. -/
theorem witness_ReelLifetime_image :
    ((stored 3).sched.loads.find? fun l => l.p = 1 && l.slot = 0 && decide (l.at' < (stored 3).clap.num)) = some { p := 1, slot := 0, req := storedReq 3, at' := 3 }
    ∧ (∃ im m, (storedRead 3).1 = some (im, m) ∧ (sigVerifies 0 im 256 = true → (storedRead 3).2.loadCheck 1 (storedReq 3) im m = 0))
    ∧ (storedRead 2).1.isSome = true ∧ (storedRead 2).2.loadCheck 1 (storedReq 2) (storedImage 2).1 (storedImage 2).2 ≠ 0
    ∧ (State.reset.readReel 1 (storedReq 3)).1 = none := by
  obtain ⟨h0, h1, h2, h3⟩ := stored_facts
  refine ⟨by decide +kernel, ⟨(storedImage 3).1, (storedImage 3).2, ?_, fun h => ?_⟩, by decide +kernel, ?_, by decide +kernel⟩
  · rw [storedImage]
    cases hx : (storedRead 3).1 with
    | none => rw [hx] at h0; cases h0
    | some x => rfl
  · have hs : (storedRead 3).2.sealVerify 1 (storedImage 3).1 = true := by simp [State.sealVerify, h1, h2, h, h3]
    unfold State.loadCheck
    rw [hs]
    decide +kernel
  · unfold State.loadCheck
    cases (storedRead 2).2.sealVerify 1 (storedImage 2).1
    · simp [rsSignature]
    · decide +kernel
/-- Channel 4 in a state, with the running item 1 and one firing left. -/
def channel (st : Nat) (eligible pend : Bool) (slot : Option Nat) : State :=
  let s := working [itemOn 0x500 pgSplicer 2 .running false]
  let s := s.modChan 4 fun k => { k with st := st, eligible := eligible, pendingFire := pend, item := 1, part := 1, firesLeft := 1, runsLeft := 1 }
  { s with splicer := { s.splicer with slot := slot, store := [(0, zeros 24 ++ [255, 255])] } }

theorem witness_SplicerRuns :
    (let s := channel 1 false false none
     s.item (s.chan 4).item = some (itemOn 0x500 pgSplicer 2 .running false) ∧ (s.chan 4).st = 1 ∧ (s.chan 4).firesLeft ≠ 0
     ∧ (s.splEntry (s.chan 4).first).trig ≠ 2 ∧ (s.chan 4).eligible = false)
    ∧ (let s := channel 3 false false none
       (s.chan 4).st = 3 ∧ s.writable (pgChan 4) 0x40 2 = true ∧ s.writable (pgChan 4) 0x40 1 = true)
    ∧ (let s := channel 2 false false (some 4)
       s.splicer.slot = some 4 ∧ (s.chan 4).st = 2 ∧ s.item (s.chan 4).item = some (itemOn 0x500 pgSplicer 2 .running false)
       ∧ (s.begin.runList 4 (itemOn 0x500 pgSplicer 2 .running false) 2049).1 = true
       ∧ ((s.begin.runList 4 (itemOn 0x500 pgSplicer 2 .running false) 2049).2.chan 4).runsLeft ≤ 1
       ∧ (s.begin.runList 4 (itemOn 0x500 pgSplicer 2 .running false) 2049).2.item 1 = some (itemOn 0x500 pgSplicer 2 .running false)
       ∧ (s.chan 4).eligible = false) := by decide +kernel

theorem witness_PendingFirings :
    (∀ s ∈ [channel 2 false false (some 4), channel 3 false false none, channel 1 true false none],
      s.item (s.chan 4).item = some (itemOn 0x500 pgSplicer 2 .running false)
      ∧ ((s.chan 4).eligible = true ∨ (s.chan 4).st = 2 ∨ (s.chan 4).st = 3) ∧ (s.chan 4).pendingFire = false)
    ∧ (channel 2 false true (some 4)).chan 4 = { (channel 2 false false (some 4)).chan 4 with pendingFire := true }
    ∧ ((channel 2 false true (some 4)).chan 4).part ≠ 0
    ∧ (((channel 2 false true (some 4)).modChan 4 fun k => { k with part := 0 }).chan 4).part = 0
    ∧ (let s := channel 1 false false none
       (s.chan 4).st ≠ 0 ∧ (s.chan 4).firesLeft ≠ 0 ∧ (s.splEntry (s.chan 4).first).trig ≠ 2)
    ∧ (itemOn 0x500 pgSplicer 2 .running false).spl = true ∧ (State.reset.chan 4).st = 0 := by decide +kernel

/-- Context 7, which an item of partition 1 runs. -/
def teleState (mode st slice slicesDone : Nat) (engine : Option Nat) (desc : Bytes) : State :=
  let s := working [itemOn 0x400 (pgTctx 7) 2 .running false]
  let s := s.modTctx 7 fun t => { t with
    mode := mode, st := st, item := 1, part := 1, picsLeft := 1, slice := slice, slicesDone := slicesDone, desc := desc }
  { s with tele := { s.tele with engine := engine } }

/-- An encode descriptor of 64 × 64 pixels with a ring of 2^20 bytes at 0x10000, and a decode one of 4 slots. -/
def encDesc : Bytes :=
  leBytes 2 opEncode ++ [0, 0] ++ leBytes 2 64 ++ leBytes 2 64 ++ [1, 1] ++ leBytes 2 0 ++ zeros 28 ++ leBytes 8 0x10000 ++ leBytes 4 0x100000 ++ [4, 0] ++ zeros 10
def decDesc : Bytes :=
  leBytes 2 opDecode ++ [0, 0] ++ leBytes 2 64 ++ leBytes 2 64 ++ [1, 1] ++ zeros 14 ++ leBytes 8 0x80000 ++ zeros 8 ++ leBytes 8 0x10000 ++ leBytes 4 0x1000 ++ [4, 0] ++ zeros 10

/-- One access unit of 16 bytes stands in the input ring; `ty` is its first NAL byte. -/
def fed (ty : Byte) (s : State) : State :=
  (s.pokeMain (s.msBase 1 + 0x80000) (leBytes 8 32)).pokeMain (s.msBase 1 + 0x80000 + 64) (leBytes 4 16 ++ zeros 12 ++ [0, 0, 1, ty])

/-- Context 7 has the engine. -/
def engaged (s : State) : State := ({ s with tele := { s.tele with engine := some 7 } } : State).modTctx 7 fun t => { t with st := 1 }

def armedTele (s : State) : State := { s with reh := { s.reh with live := [{ entry := 0, kind := 1, page := pgTctx 7 }] } }

/-- Ready pictures, with no injection and with one; pictures that are not ready. -/
theorem witness_TelecinePictures :
    (let s := teleState 1 3 0 0 none encDesc
     (s.tctx 7).mode = 1 ∧ (s.tctx 7).classA = false ∧ (s.begin.at 0).picReady 7 = true ∧ (s.begin.at 0).firstTile 7 = true
     ∧ (s.begin.at 0).gapOpen 0 (s.tctx 7).d.picCycles = true ∧ s.reh.live = []
     ∧ ((engaged (s.begin.at 0)).teleRows 7 (s.tctx 7).headers []).1 ≠ none
     ∧ (armedTele s).reh.live ≠ [] ∧ ((armedTele s).begin.at 0).picReady 7 = true
     ∧ ((teleState 1 3 0 0 (some 3) encDesc).begin.at 0).picReady 7 = false)
    ∧ (let s := fed 38 (teleState 2 3 0 0 none decDesc)
       let w := ((s.begin.at 0).drainDue 7 32).2.skipAus 7 64
       (s.tctx 7).mode = 2 ∧ (s.tctx 7).st = 3 ∧ (s.tctx 7).picsLeft ≠ 0 ∧ ((s.begin.at 0).drainDue 7 32).1 = true
       ∧ w.picReady 7 = true ∧ w.firstTile 7 = true ∧ w.gapOpen 0 (w.tctx 7).d.picCycles = true ∧ w.reh.live = []
       ∧ ((engaged w).teleRows 7 (w.tctx 7).headers []).1 ≠ none)
    ∧ (let s := teleState 1 2 0 0 none encDesc
       (s.tctx 7).st = 2 ∧ s.writable (pgTctx 7) 0x40 1 = true ∧ s.writable (pgTctx 7) 0x40 2 = true
       ∧ ((teleState 1 3 0 0 none encDesc).tctx 7).st ≠ 2) := by decide +kernel

/-- The engine's slice: one that it has written before, and one whose record has no room but for its header. -/
theorem witness_TelecinePictures_slice :
    (let s := teleState 1 1 0 1 (some 7) encDesc
     let t := s.tctx 7
     s.tele.engine = some 7 ∧ t.slice < t.d.slices ∧ t.slice < t.slicesDone
     ∧ ((s.begin.at 0).teleRows 7 (t.sliceReads t.slice) []).1 ≠ none)
    ∧ (let s := (teleState 1 1 0 0 (some 7) encDesc).modTctx 7 fun t => { t with nalBytes := t.d.worst }
       let t := s.tctx 7
       let v := (s.begin.at 0).teleRows 7 (t.sliceReads t.slice) []
       let b := v.2.sliceRec 7
       let w := v.2.padFor 7 b
       v.1 ≠ none ∧ t.slicesDone ≤ t.slice ∧ w.1 = true ∧ (w.2.putRec 7 b).1 = true ∧ b.length ≤ t.ringRest) := by decide +kernel

/-- A picture of no samples ends; an access unit without a coded slice is consumed; a context without the engine. -/
theorem witness_TelecinePictures_done :
    (let s := teleState 1 1 1 0 (some 7) (zeros 64)
     s.tele.engine = some 7 ∧ (s.tctx 7).mode = 1 ∧ (s.tctx 7).d.slices ≤ (s.tctx 7).slice
     ∧ (((s.begin.at 0).encodeDone 7).tctx 7).st ≠ 2)
    ∧ (let s := fed 80 (teleState 2 1 0 0 (some 7) decDesc)
       s.tele.engine = some 7 ∧ (s.tctx 7).mode = 2 ∧ s.nextAu 7 ≠ none ∧ (((s.begin.at 0).decodeDone 7).tctx 7).st ≠ 2)
    ∧ (teleState 1 1 0 0 none encDesc).tele.engine ≠ some 7 := by decide +kernel

/-- A copy of one whole granule between two aligned places ends. -/
theorem witness_SplicerCopies :
    let s := channel 2 false false (some 4)
    let a := s.msBase 1
    (a + 64 ≤ a + 256 ∨ a + 256 + 64 ≤ a)
    ∧ (s.copyLoop { p := 1 } 4 a (a + 256) 64 0 (a / 64) (64 / 64 + 2)).1 = .done := by decide +kernel
/-! ### Stores, scrubs and partitions -/

/-- Links 5 (controller 1) and interface 2 enabled in MAG_CTRL and PARK_CTRL. -/
def linked (up training : Nat) : State :=
  let s := (live.wr (pgMag 1) 0x40 15).wr pgPark 0x40 255
  (s.modCtl 1 fun c => { c with up := up, training := training }).modCtl 8 fun c => { c with up := up, training := training }

theorem witness_LinksAndStores :
    (∀ l ∈ [LinkId.octal 5, .park 2],
      ((linked 255 0).ctl l.ctl).up.testBit l.bit = true ∧ ((linked 0 255).ctl l.ctl).training.testBit l.bit = true
      ∧ (linked 255 0).writable l.page 0x40
          (setBit (word ((linked 255 0).rdn l.page 0x40 % 2 ^ (if l.ctl = 8 then 8 else 4))) (retrainBit l) true) = true
      ∧ (linked 255 0).linkEn l = true)
    ∧ (live.ctl 8).hot.testBit 2 = false
    ∧ (∀ l ∈ [LinkId.octal 5, .park 2],
        ((linked 0 0).ctl l.ctl).up.testBit l.bit = false ∧ ((linked 0 0).ctl l.ctl).training.testBit l.bit = false)
    ∧ (cmdOk 0x1FFFFFFF = false ∧ cmdOk 0x20082469 = true)
    ∧ (let s := live.wr (pgMag 0) 0x7C 64
       s.writable (pgMag 0) 0x84 1 = true ∧ s.writable (pgMag 1) 0x84 1 = true ∧ bit (1 : Word) 0 = true
       ∧ linkOf (s.rdn (pgMag 0) 0x7C / 64 * 64) / 4 = 0 ∧ 64 < mainSize
       ∧ linkOf ((live.wr (pgMag 1) 0x7C 64).rdn (pgMag 1) 0x7C / 64 * 64) / 4 ≠ 1) := by decide +kernel

/-- Partition 2 with 1 GiB of main store above partition 1's, its tables in place; keys derived. -/
def part2 : State :=
  let w (s : State) (o v : Nat) : State := s.wr (pgPart 2) o (word v)
  let s := w (w (w (w live 0x48 0x10001) 0x54 0x1000) 0x58 0x1000) 0x64 8
  let s := w (w (w s 0x68 0x1000) 0x70 16) 0x74 0x2000
  { w s 0x7C 16 with sec := { live.sec with keysReady := true } }

theorem witness_PartitionCommands :
    (part2.writable (pgPart 2) 0x40 1 = true ∧ part2.writable (pgPart 2) 0x40 2 = true ∧ part2.writable (pgPart 2) 0x40 4 = true
      ∧ part2.scrubOkNow 2 = true ∧ part2.slatesOn = true ∧ part2.sec.keysReady = true ∧ (part2.part 2).prstReq = false
      ∧ part2.sec.counter + part2.pendingBurns < 4096)
    ∧ (let s := { part2 with sec := { part2.sec with counter := 4096 } }
       s.scrubOkNow 2 = true ∧ 4096 ≤ s.sec.counter + s.pendingBurns)
    ∧ ((part2.modPart 2 fun q => { q with enabled := true }).scrubOkNow 2 = false)
    ∧ (∀ ok ∈ [true, false], ∀ run ∈ [true, false],
        let s := (part2.modPart 2 fun q => { q with scrubOk := ok })
        let s := { s with clap := { s.clap with run := run } }
        s.unreach (pgPart 2) = false ∧ (s.hdr (pgPart 2)).lock = false ∧ (s.hdr (pgPart 2)).enable = false
        ∧ (s.enableOk 2 && !(s.part 2).scrubbing && !(s.part 2).scrubReq) = ok ∧ s.slatesOn = run ∧ (s.part 2).enabled = false)
    ∧ (let s := (part2.modHdr (pgPart 2) fun h => { h with enable := true }).modPart 2 fun q => { q with enabled := true }
       (s.hdr (pgPart 2)).enable = true ∧ (s.reelsOf 2).isEmpty = true
       ∧ ((withReels [{ reelB with p := 2 }] s).reelsOf 2).isEmpty = false)
    ∧ (let s := part2.modHdr (pgPart 2) fun h => { h with lock := true }
       (s.hdr (pgPart 2)).lock = true ∧ (s.hdr (pgPart 2)).enable = false ∧ s.unreach (pgPart 2) = false)
    ∧ (let s := { part2 with clap := { part2.clap with run := false } }
       s.slatesOn = false ∧ s.writable (pgPart 2) 0x40 1 = true ∧ s.writable (pgPart 2) 0x40 2 = true ∧ s.scrubOkNow 2 = true
       ∧ (s.part 2).changeReq = false)
    ∧ (((part2.modPart 2 fun q => { q with prstReq := true }).part 2).prstReq = true) := by decide +kernel

/-- The shares of partition 2's scrub: controller 1 writes its own. -/
def scrubbing (e : Bool) (up : Nat) : State :=
  let s := part2.modPart 2 fun q => { q with scrubbing := true }
  ((s.pokeMain (s.msBase 2) [7]).pokeMain (s.msBase 2 + 0xC00) [7]).modCtl 1 fun c => { c with scrub := 1, scrubPart := 2, scrubErr := e, up := up }

def ended (failed : Bool) : State :=
  let s := part2.modPart 2 fun q => { q with scrubbing := true }
  { s with stores := { s.stores with scrubs := [{ p := 2, ended := List.range 9, failed := failed }] }, clap := { s.clap with num := 1 } }

theorem witness_Scrubs :
    (let s := part2.modPart 2 fun q => { q with burning := true, scrubbing := true }
     (s.part 2).burning = true ∧ (∀ j, j < 2 → (s.part j).burning = false)
     ∧ burnResult 2 [false, true] = some (true, 1) ∧ burnResult 0 [false] = some (false, 0) ∧ burnResult 0 [] = none)
    ∧ (let s := scrubbing false 15
       (s.ctl 1).scrub = 1 ∧ (s.ctl 1).paused = false ∧ (s.ctl 1).scrubQueue = [] ∧ (s.ctl 1).scrubErr = false ∧ s.downCount 1 = 0
       ∧ s.inArea 2 (s.msBase 2 + 256) = true ∧ linkOf (s.msBase 2 + 0xC00) / 4 = 1
       ∧ s.rawMain (s.msBase 2 + 0xC00) 1 = [7] ∧ linkOf (s.msBase 2) / 4 ≠ 1)
    ∧ ((scrubbing true 15).ctl 1).scrubErr = true ∧ (scrubbing false 7).downCount 1 ≠ 0 ∧ (live.ctl 1).scrub ≠ 1
    ∧ (∀ f ∈ [false, true], (ended f).scrubEnded 2 = some f ∧ (ended f).scrubSlate 2 = true)
    ∧ State.reset.scrubEnded 2 = none := by decide +kernel

theorem witness_ScrubOkCleared :
    (let s := part2.modPart 2 fun q => { q with scrubOk := true }
     ∀ x ∈ [(0x48, 0x20002), (0x4C, 0x10000), (0x54, 0x2000), (0x58, 0x2000)],
       s.writable (pgPart 2) x.1 (word x.2) = true ∧ s.partBusy 2 = false ∧ (s.wr (pgPart 2) x.1 (word x.2)).rangesOk 2 = true)
    ∧ ({ live with power := { live.power with holdup := true } } : State).power.holdup = true
    ∧ (let s := part2.modPart 2 fun q => { q with burning := true }
       (s.part 2).burning = true ∧ (∀ j, j < 2 → (s.part j).burning = false) ∧ burnResult 2 [false, true] = some (true, 1))
    ∧ (ended false).scrubEnded 2 = some false ∧ (ended false).scrubSlate 2 = true := by decide +kernel

/-- Partition 1 with a live context, a waiting item, a load, a batch and its request, about to be reset. -/
def resetting : State :=
  let s := ctx0 3 0 (working [itemOn 0x200 (pgFocus 0) 2 .waiting false])
  let s := { s with
    sched := { s.sched with loads := [{ p := 1, slot := 0, req := loadReq, at' := 3 }], shadow := [(4096, 5)] }
    clap := { s.clap with num := 4 } }
  s.modPart 1 fun q => { q with prstReq := true, prstAt := 3 }

theorem witness_PartitionResets :
    ((resetting.part 1).prstReq = true ∧ resetting.slatePassed (resetting.part 1).prstAt = true ∧ resetting.ctxOf 1 0 = true
      ∧ resetting.desc 0 ≠ {} ∧ resetting.shadowOf 1 0 = 5)
    ∧ (let s := part1.modPart 1 fun q => { q with prstBusy := true }
       (s.part 1).prstBusy = true ∧ s.partItems 1 = [])
    ∧ (State.reset.part 1).prstReq = false ∧ (State.reset.part 1).prstBusy = false := by decide +kernel

/-! ### Register accesses -/

theorem witness_HeaderControl :
    (let h := live.hdr (pgFocus 3)
     live.reaches (pgFocus 3) = true ∧ ctrlBut h (word (1 - b2n h.enable)) 0 = true ∧ bit (word (1 - b2n h.enable)) 0 ≠ h.enable
     ∧ h.lock = false ∧ pageKind (pgFocus 3) ≠ .partition ∧ h.rstBusy = false ∧ enableFixed (pgFocus 3) = false ∧ live.heldByA (pgFocus 3) = false
     ∧ ctrlBut h (word (b2n h.enable + 8)) 3 = true ∧ ctrlBut h (word (b2n h.enable + 2)) 1 = true
     ∧ ctrlBut h (word (b2n h.enable + 4)) 2 = true ∧ h.freeze = false ∧ live.reg.snapHeld = false)
    ∧ (let s := live.modHdr (pgMag 3) fun h => { h with enable := true }
       s.reaches (pgMag 3) = true ∧ ctrlBut (s.hdr (pgMag 3)) 0 0 = true ∧ bit (0 : Word) 0 ≠ (s.hdr (pgMag 3)).enable ∧ enableFixed (pgMag 3) = true
       ∧ pageKind (pgMag 3) ≠ .partition)
    ∧ ((live.modHdr (pgFocus 3) fun h => { h with rstBusy := true }).hdr (pgFocus 3)).rstBusy = true
    ∧ ((16 : Word) &&& ~~~word (pageEvtMask (pgFocus 3)) = 0)
    ∧ (∃ r, regRow (pgMag 3) 0x48 = some r ∧ r.acc = .rc ∧ live.frozen (pgMag 3) = false ∧ live.hidden (pgMag 3) 0x48 = false
      ∧ (live.modHdr (pgMag 3) fun h => { h with freeze := true }).frozen (pgMag 3) = true) :=
  ⟨by decide +kernel, by decide +kernel, by decide +kernel, by decide +kernel, ⟨_, rfl, by decide +kernel⟩⟩

theorem witness_WritesTurnedAway :
    (let s := live.modHdr pgGaffer fun h => { h with lock := true }
     s.reaches pgGaffer = true ∧ (s.hdr pgGaffer).rstBusy = false ∧ (s.hdr pgGaffer).lock = true ∧ lockOpen pgGaffer 0x44 = 0
     ∧ ∃ r, regRow pgGaffer 0x44 = some r ∧ r.acc ≠ .ro ∧ r.acc ≠ .rc)
    ∧ (0x005 < bar2Page ∧ live.reaches 0x005 = false) ∧ (zeros 4).length = 4
    ∧ (0x1044 < barSize ∧ (zeros 1).length = 1 ∧ live.reaches (0x1044 / 0x1000) = true) :=
  ⟨⟨by decide +kernel, by decide +kernel, by decide +kernel, by decide +kernel, _, rfl, by decide +kernel⟩, by decide +kernel⟩

theorem witness_UnimplementedPages : 0x005 < bar2Page ∧ implemented 0x005 = false ∧ 0x005 * 0x1000 ≤ 0x005010 ∧ 0x005010 + (zeros 8).length ≤ (0x005 + 1) * 0x1000 := by
  decide +kernel

/-- No slates are issued. -/
def idle : State := { live with clap := { live.clap with run := false } }

/-- The class A reel holds cell 5. -/
def holding : State := withReels [{ reelA with cells := [5] }] live

theorem witness_RegisterWrites :
    (live.writable pgGaffer 0x44 450 = true ∧ capOk (field (450 : Word) 0 9) = true ∧ live.writable pgGaffer 0x44 99 = true
      ∧ capOk (field (99 : Word) 0 9) = false ∧ capOk (field (451 : Word) 0 9) = false ∧ capOk (field (100 : Word) 0 9) = true)
    ∧ (∀ x ∈ [(0x4C, 2, 1), (0x50, 1000, 1001), (0x54, 0x10032, 0x10031), (0x58, 10, 9)],
        live.writable (0x18 + 2) x.1 (word x.2.1) = true ∧ timerOk x.1 (word x.2.1) = true
        ∧ live.writable (0x18 + 2) x.1 (word x.2.2) = true ∧ timerOk x.1 (word x.2.2) = false)
    ∧ (∃ n : Nat, live.writable (0x18 + 2) 0x5C (word n) = true ∧ timerOk 0x5C (word n) = true)
    ∧ (pageKind (pgPrime 5) = .prime ∧ holding.writable (pgPrime 5) 0x40 1 = true ∧ bit (1 : Word) 0 = true
      ∧ bit (holding.rd (pgPrime 5) 0x40) 0 = false ∧ holding.heldByA (pgPrime 5) = true
      ∧ pageKind (pgDraw 1) = .draw ∧ live.writable (pgDraw 1) 0x40 0 = true ∧ pageKind (pgFocus 1) = .focus)
    ∧ (live.writable (pgPrime 5) 0x70 1 = true ∧ idle.writable (pgPrime 5) 0x70 1 = true)
    ∧ live.slatesOn = true ∧ idle.slatesOn = false ∧ live.unreach pgD2d = false
    ∧ (idle.writable pgGlobal 0x60 1 = true ∧ idle.writable pgGlobal 0x60 2 = true)
    ∧ (live.writable pgGlobal 0x60 1 = true ∧ bit (live.rd pgGlobal 0x60) 1 = false ∧ live.writable pgGlobal 0x60 2 = true) :=
  ⟨by decide +kernel, by decide +kernel, ⟨0x01010064, by decide +kernel⟩, by decide +kernel⟩

theorem witness_KatAndCertificate :
    (live.writable pgCutter 0x80 1 = true ∧ live.units.kat.busy = false)
    ∧ ({ live with units := { live.units with kat := { live.units.kat with busy := true } } } : State).units.kat.busy = true
    ∧ (live.reaches 0x00B = true ∧ (live.hdr 0x00B).rstBusy = false ∧ live.frozen 0x00B = false)
    ∧ (live.wr 0x00B 0x40 1823).rdn 0x00B 0x40 = 1823 := by decide +kernel

/-! ### Resets, start-up, firmware and debug -/

/-- Start-up at a stage, with both seal roots burnt and straps of tray 5. -/
def starting (n : Nat) : State :=
  { State.reset with
    boot := { State.reset.boot with stage := n, straps := some 5 }
    sec := { State.reset.sec with fuseState := 7, storeValid := true } }

theorem witness_Resets :
    ({ live with power := { live.power with holdup := true } } : State).power.holdup = true
    ∧ (let s := { live with boot := { live.boot with mrstLow := true, stage := 0 } }
       s.boot.mrstLow = true ∧ s.boot.stage = 0 ∧ s.power.tripped = false
       ∧ (let t := { s with power := { s.power with tripped := true, monTj := s.rungTemp 0 } }
          t.power.tripped = true ∧ t.rungTemp 0 ≤ t.power.monTj)
       ∧ (let t := { s with power := { s.power with tripped := true, monTj := s.rungTemp 0 - 1 } }
          t.power.tripped = true ∧ t.power.monTj < t.rungTemp 0))
    ∧ (live.writable pgGlobal 0x50 0x57525354 = true ∧ live.writable pgGlobal 0x50 1 = true ∧ (1 : Word) ≠ 0x57525354)
    ∧ (let s := { live with boot := { live.boot with warmReq := some 3 }, clap := { live.clap with num := 4 } }
       s.boot.warmReq = some 3 ∧ s.slatePassed 3 = true ∧ s.slatePassed 4 = false)
    ∧ live.boot.warmReq = none ∧ live.boot.mrstLow = false := by decide +kernel

theorem witness_StartUp :
    (∀ n ∈ [1, 2, 3, 4, 5, 6], (starting n).power.tripped = false ∧ (starting n).boot.stage = n)
    ∧ (starting 1).boot.straps = some 5 ∧ (starting 1).sec.fuseState % 8 = 7 ∧ StageOutcome.ok ≠ .fuseFault
    ∧ ({ starting 1 with sec := { State.reset.sec with fuseState := 5 } } : State).sec.fuseState % 8 ≠ 7
    ∧ ((starting 5).sec.storeValid = true ∧ StageOutcome.ok ≠ .imageInvalid)
    ∧ ((starting 0).boot.mrstLow = false ∧ (starting 0).power.tripped = false ∧ (starting 0).boot.stage = 0)
    ∧ ({ starting 0 with boot := { (starting 0).boot with mrstLow := true } } : State).boot.mrstLow = true
    ∧ (∀ c ∈ ({ primeFailed := [0, 223], drawFailed := [31], focusFailed := [15] } : ScreenResult).primeFailed, c < 224) := by decide +kernel

/-- A firmware image: header, and its signature block at 64. -/
def firmware : Bytes :=
  leBytes 4 fwMagic ++ leBytes 4 1 ++ zeros 4 ++ leBytes 2 3 ++ zeros 50
  ++ leBytes 4 sigMagic ++ leBytes 2 1 ++ leBytes 2 1 ++ leBytes 8 64 ++ zeros 7280

def sealed (result : Nat) (writing : Bool) (img : Option Bytes) : State :=
  { live with sec := { live.sec with fwResult := result, writing := writing, staged := img, keysReady := true } }

theorem firmware_parts : fwHeader firmware = true ∧ fwBlock firmware 64 (firmware.length / 64) = some 64
    ∧ sigFormed firmware 64 = true ∧ ¬ leAt firmware 12 2 < 0 := by decide +kernel

/-- An image that the seal passes, where its key is the fused one and its signature verifies; and none, which it does not. -/
theorem witness_FirmwareAndRandom :
    (fwJudge 0 none ≠ 2 ∧ (sha3 (sigKey firmware 64) = fwKeyDigest → sigVerifies 1 firmware 64 = true → fwJudge 0 (some firmware) = 2))
    ∧ (sealed 0 false none).sec.fwResult ≠ 1 ∧ (sealed 1 false none).sec.fwResult = 1 ∧ (sealed 1 false none).sec.writing = false
    ∧ (sealed 1 true (some firmware)).sec.writing = true
    ∧ (sealed 0 false none).writable pgSec1 0x4C 1 = true ∧ (sealed 1 false none).writable pgSec1 0x4C 2 = true
    ∧ live.writable pgSec1 0x50 0x434D5453 = true ∧ live.writable pgSec1 0x50 1 = true
    ∧ (scripted live).script.stat = 2
    ∧ ({ live with script := { live.script with lateDue := true } } : State).script.lateDue = true
    ∧ ({ live with sec := { live.sec with rngOk := true } } : State).sec.rngOk = true
    ∧ ({ sealed 0 false none with sec := { (sealed 0 false none).sec with rngOk := false } } : State).sec.rngOk = false := by
  refine ⟨⟨by decide, fun hk hv => ?_⟩, by decide +kernel⟩
  obtain ⟨h1, h2, h3, h4⟩ := firmware_parts
  simp only [fwJudge, h1, h2, h3, hk, hv, h4, Bool.not_true, Bool.false_eq_true, if_false, ne_eq, not_true_eq_false, decide_false,
    Bool.or_self]

theorem witness_DebugAccess :
    (State.reset.debugIsOpen .tap = false ∧ State.reset.debugIsOpen .console = false)
    ∧ (let s := { part1 with sec := { part1.sec with tapOpen := true } }
       s.debugIsOpen .tap = true ∧ s.msBase 1 + (zeros 8).length ≤ mainSize ∧ s.ownerMain (s.msBase 1) = some 1)
    ∧ (let s := { part1.wr (pgPart 0) 0x48 0x10005 with sec := { part1.sec with tapOpen := true } }
       s.sec.tapOpen = true ∧ s.ownerMain (s.msBase 0) = some 0 ∧ s.msBase 0 + (zeros 8).length ≤ mainSize)
    ∧ ({ live with boot := { live.boot with mrstLow := true } } : State).boot.mrstLow = true ∧ live.boot.mrstLow = false
    ∧ (let s := { live.modHdr (pgFocus 3) fun h => { h with owner := 2 } with sec := { live.sec with consoleOpen := true } }
       s.sec.consoleOpen = true ∧ s.ownerOf (pgFocus 3) ≠ 0) := by decide +kernel


/-- Forms that change nothing, or are turned away. -/
theorem witness_HeaderControl_else :
    (let s := live.modHdr (pgFocus 3) fun h => { h with lock := true, rstBusy := true }
     let h := s.hdr (pgFocus 3)
     s.reaches (pgFocus 3) = true ∧ ctrlBut h (word (1 - b2n h.enable)) 0 = false
     ∧ ctrlBut h (word (1 - b2n h.enable + 8)) 0 = true ∧ h.lock = true ∧ bit (word (1 - b2n h.enable + 8)) 0 ≠ h.enable
     ∧ ctrlBut h (word (b2n h.enable + 10)) 1 = true ∧ h.rstBusy = true)
    ∧ (live.reaches (pgPart 2) = true ∧ ctrlBut (live.hdr (pgPart 2)) 1 0 = true)
    ∧ setBit (word (1 <<< 30)) evLatched true &&& ~~~word (pageEvtMask (pgFocus 3)) ≠ 0
    ∧ (let s := live.modHdr (pgFocus 3) fun h => { h with owner := 2 }
       (regRow (pgFocus 3) 0x4C).any (fun r => r.acc = .rc) = true ∧ s.reaches (pgFocus 3) = true
       ∧ (s.hdr (pgFocus 3)).rstBusy = false ∧ s.frozen (pgFocus 3) = false ∧ s.hidden (pgFocus 3) 0x4C = true)
    ∧ (let s := live.modHdr (pgMag 3) fun h => { h with rstBusy := true }
       s.reaches (pgMag 3) = true ∧ (s.hdr (pgMag 3)).rstBusy = true ∧ (regRow (pgMag 3) 0x48).any (fun r => r.acc = .rc) = true
       ∧ (live.hdr (pgMag 3)).rstBusy = false) := by decide +kernel

theorem witness_FirmwareAndRandom_else :
    live.script.stat ≠ 2 ∧ live.script.lateDue = false ∧ live.sec.fwResult ≠ 1 ∧ live.sec.writing = false
    ∧ live.sec.rngOk = false ∧ live.sec.keysReady = false ∧ live.boot.stage ≠ 8
    ∧ ({ live with boot := { live.boot with stage := 8 } } : State).writable pgSec1 0x50 0x434D5453 = true
    ∧ (let s := { live with reg := { live.reg with snapHeld := true } }
       s.reaches 0x00B = true ∧ (s.hdr 0x00B).rstBusy = false ∧ s.frozen 0x00B = true) := by decide +kernel

/-- A debug access to a granule behind a link that is up and behind one that is down; a unit with a tenant's residue, and with none. -/
theorem witness_DebugAccess_places :
    (let s := live
     let l := pieces 0 8
     s.sec.consoleOpen = true ∧ 0 + (zeros 8).length ≤ mainSize
     ∧ (l.any fun x => !(s.ctl (linkOf (x.1 * 64) / 4)).up.testBit (linkOf (x.1 * 64) % 4)) = false
     ∧ (l.any fun x => !(State.reset.ctl (linkOf (x.1 * 64) / 4)).up.testBit (linkOf (x.1 * 64) % 4)) = true
     ∧ (l.all fun x => s.badMainAt x.1 = 0) = true)
    ∧ (let s := part1.wr (pgPart 0) 0x48 0x10005
       (pieces (s.msBase 0) 8).all (fun x => s.clearMain (x.1 * 64)) = true
       ∧ (pieces (s.msBase 1) 8).all (fun x => s.clearMain (x.1 * 64)) = false)
    ∧ (let s := live.modUnit (pgFocus 3) fun u => { u with residue := some 2 }
       s.ownerOf (pgFocus 3) = 0 ∧ (s.unit (pgFocus 3)).residue = some 2 ∧ (live.unit (pgFocus 3)).residue = none) := by decide +kernel
/-! ### Power and the PMBus -/

def powered (f : Power → Power) : State := { live with power := f live.power }

theorem witness_Supply :
    (live.power.present false = false
      ∧ (let s := powered fun w => { w with presentA := true, lostA := true }
         s.power.present true = true ∧ s.power.carry true = false ∧ s.power.oc true = false ∨
           s.power.present false = true ∧ s.power.carry false = false ∧ s.power.oc false = false)
      ∧ (let s := powered fun w => { w with presentA := true, carryA := true, presentB := true, carryB := true }
         ∀ b, s.power.present b = true ∧ s.power.carry b = true ∧ s.power.carry (!b) = true)
      ∧ (let s := powered fun w => { w with presentA := true, carryA := true }
         ∃ b, s.power.carry b = true ∧ s.power.present b = true ∧ s.power.carry (!b) = false))
    ∧ (live.power.refclk = true ∧ (powered fun w => { w with refclk := false }).power.refclk = false ∧ live.power.clkHoldover = false)
    ∧ (live.writable pgGaffer 0x80 1 = true ∧ live.power.wrap = 0 ∧ live.wrapOk = true ∧ live.slatesOn = true
      ∧ idle.writable pgGaffer 0x80 1 = true ∧ idle.wrapOk = true ∧ idle.slatesOn = false
      ∧ (withReels [reelB] live).wrapOk = false
      ∧ (powered fun w => { w with wrap := 1 }).power.wrap = 1
      ∧ (powered fun w => { w with wrap := 2 }).writable pgGaffer 0x80 2 = true ∧ (powered fun w => { w with wrap := 2 }).power.wrap = 2
      ∧ (powered fun w => { w with wrap := 3 }).power.wrap = 3
      ∧ (powered fun w => { w with wrap := 3 }).writable pgGaffer 0x80 1 = true ∧ (powered fun w => { w with wrap := 1 }).writable pgGaffer 0x80 1 = true)
    ∧ (powered fun w => { w with clkHoldover := true }).power.clkHoldover = true
    ∧ live.power.carry true = false := by decide +kernel

theorem witness_PowerDomains :
    (let s := powered fun w => { w with domainReady := 1 }
     s.power.domainOn.testBit 9 = true ∧ s.power.domainReady.testBit 9 = false ∧ s.power.gateWait = 0)
    ∧ live.power.domainOn.testBit 2 = true ∧ live.power.domainOn.testBit 9 = true ∧ live.power.tripped = false
    ∧ (powered fun w => { w with domainOn := 1, tripped := true }).power.tripped = true
    ∧ (powered fun w => { w with domainOn := 1, tripped := true }).power.domainOn.testBit 9 = false
    ∧ live.power.domainReady.testBit 9 = true
    ∧ (∃ pg ∈ allPages, pageDomain pg = 9) := by decide +kernel

/-- An evaluation of average power x is due, with SHED_UNDER_CAP and a cap of 300 W. -/
def judged (level : Nat) : State :=
  let s := reg (reg live pgGaffer 0x40 1) pgGaffer 0x44 300
  { s with power := { s.power with evalDue := true, level := level, recs := [(0, some 250)] } }

theorem witness_CapAndLadder :
    (({ live with power := { live.power with evalDue := true } } : State).shedUnderCap = false ∧ (judged 1).power.evalDue = true)
    ∧ ((judged 3).shedUnderCap = true ∧ (judged 3).effCap < 301 ∧ (judged 3).power.level < 4 ∧ 4 ≤ (judged 4).power.level
      ∧ 300 ≤ (judged 1).effCap)
    ∧ (let s := powered fun w => { w with rungs := 5, tj := live.rungTemp 2 - 4 }
       s.power.rungs.testBit 2 = true ∧ s.power.tj < s.rungTemp 2 - 3)
    ∧ live.power.evalDue = false ∧ live.power.rungs.testBit 2 = false := by decide +kernel

def boarded : State := { live with boot := { live.boot with stage := 7, slot := 2 } }

theorem witness_PmbusCommands :
    State.reset.pmbusUp = false ∧ boarded.pmbusUp = true
    ∧ (linear11Whole 450 = 450 ∧ linear11Whole 100 = 100 ∧ linear11Whole 0xF190 = 100 ∧ linear11Whole 99 < 100 ∧ 450 < linear11Whole 451
      ∧ boarded.accepts pgGaffer 0x44 (word (linear11Whole 450).toNat) = true
      ∧ (-1023 : Int) ≤ -1023 ∧ (1023 : Int) ≤ 1023)
    ∧ (boarded.accepts pgGaffer 0x80 1 = true ∧ boarded.wrapOk = true ∧ boarded.slatesOn = true ∧ boarded.power.wrap = 0)
    ∧ (let s := { boarded with power := { boarded.power with wrap := 2 } }
       s.accepts pgGaffer 0x80 2 = true ∧ s.power.wrap = 2)
    ∧ (withReels [reelB] boarded).wrapOk = false
    ∧ pmbusCodes.contains (0x55 : Byte).toNat = false ∧ pmbusCodes.contains (1 : Byte).toNat = true
    ∧ (let s := { boarded with power := { boarded.power with presentA := true, presentB := true } }
       s.power.presentA = true ∧ s.power.presentB = true ∧ s.power.holdup = false ∧ s.power.ocA = false ∧ s.power.ocB = false
       ∧ s.statusWord = 0)
    ∧ (boarded.statusWord ≠ 0 ∨ ({ boarded with power := { boarded.power with stCml := 2 } } : State).statusWord ≠ 0)
    ∧ boarded.boot.strapErr = false ∧ boarded.boot.stage ≠ 9 := by decide +kernel

theorem witness_PmbusWatchdog :
    (field ((boarded.wr pgGaffer 0x88 60).rd pgGaffer 0x88) 0 16 ≠ 0 ∧ boarded.power.pmbusSilent = false)
    ∧ field ((boarded.wr pgGaffer 0x88 0).rd pgGaffer 0x88) 0 16 = 0
    ∧ (pmbusRow .mfrLevel = true ∧ boarded.pmbusUp = true ∧ ∃ t, exec .mfrLevel boarded = .next t) :=
  ⟨by decide +kernel, by decide +kernel, rfl, by decide +kernel, _, rfl⟩

/-! ### The director die -/

/-- The link carries flits, and partition 1 is enabled and bound, with its decoder committed. -/
def hosted : State :=
  let s := part1.modPart 1 fun q => { q with enabled := true, bound := true, nonce := some (zeros 32, 0) }
  { s with
    d2d := { s.d2d with ready := true, up := true, ide := 1, decoders := [(1, some 0)] }
    sec := { s.sec with keysReady := true, rngOk := true } }

theorem witness_DirectorLink :
    (hosted.d2d.ready = true ∧ hosted.sec.rngOk = true ∧ hosted.pageOn pgD2d = true ∧ rateOf 0 = 0 ∧ rateOf 1 ≠ 0 ∧ rateOf 2 ≠ 0)
    ∧ hosted.linkLive = true ∧ (hosted.msChunks 1 ≠ 0 ∧ (2 : Nat) * chunk = (hosted.msChunks 1 + 1) * chunk ∧ hosted.msChunks 3 = 0)
    ∧ (let s := { hosted with d2d := { hosted.d2d with bisnp := [(7, true)] } }
       s.d2d.bisnp.find? (fun x => x.1 = 7) = some (7, true) ∧ s.d2d.bisnp.find? (fun x => x.1 = 8) = none)
    ∧ live.d2d.ready = false ∧ live.linkLive = false := by decide +kernel

theorem witness_CxlAccesses :
    (let m : MemReq := { decoder := 1, off := 192 }
     let w : MemReq := { decoder := 1, off := 192, write := true, data := zeros 64 }
     let pa := (hosted.msBase 1 + 192) / 64 * 64
     hosted.linkLive = true ∧ hosted.windowOpen 1 = true ∧ m.off < hosted.msSize 1 ∧ m.poison = false ∧ w.poison = false
     ∧ hosted.ownerMain pa = some 1 ∧ (hosted.part 1).heldForScrub = false ∧ (hosted.ctl (linkOf pa / 4)).up.testBit (linkOf pa % 4) = true
     ∧ m.write = false ∧ hosted.badMainAt (pa / 64) = 0 ∧ (hosted.reh.live.find? fun i => i.page = pgMag (linkOf pa / 4)) = none
     ∧ w.off % 64 = 0 ∧ w.data.length = 64 ∧ hosted.stores.reported.contains (pa / 64) = false
     ∧ (let s := (List.range 8).foldl (fun s m => s.modCtl m fun c => { c with up := 0 }) hosted
        s.linkLive = true ∧ s.windowOpen 1 = true ∧ (s.ctl (linkOf pa / 4)).up.testBit (linkOf pa % 4) = false))
    ∧ (let pa := hosted.ctxFirst 1 * 256 + (hosted.msSize 1 - hosted.msSize 1) / 64 * 64
       hosted.ownerMain pa = some 1 ∧ hosted.msSize 1 < hosted.msSize 1 + hosted.ctxCount 1 * 256)
    ∧ live.linkLive = false
    ∧ hosted.windowOpen 2 = false
    ∧ (let m : MemReq := { decoder := 1, off := hosted.msSize 1 + hosted.ctxCount 1 * 256 }
       hosted.msSize m.decoder.val + hosted.ctxCount m.decoder.val * 256 ≤ m.off)
    ∧ (let m : MemReq := { decoder := 1, off := hosted.msSize 1, write := true }
       hosted.msSize m.decoder.val ≤ m.off ∧ m.off < hosted.msSize m.decoder.val + hosted.ctxCount m.decoder.val * 256
       ∧ m.write = true) := by decide +kernel

theorem witness_CxlIsolation : ∃ t, exec (.cxlMemAccess { decoder := 1, off := 192, write := true, data := zeros 64 }) hosted = .next t :=
  ⟨_, rfl⟩

/-- A mailbox message for partition 1. -/
def doe (n len : Nat) (b : Bytes) : DoeMsg := { msg := n, part := 1, payload := b ++ zeros (len - b.length) }

theorem witness_Admission :
    (hosted.doeFree = true ∧ badMsg (doe 1 63 []) 1 64 = true ∧ badMsg (doe 1 64 []) 1 64 = false ∧ hosted.notEnabled 1 = false
      ∧ (hosted.modPart 1 fun q => { q with enabled := false }).notEnabled 1 = true)
    ∧ ({ hosted with d2d := { hosted.d2d with reportBody := some (1, zeros 32, zeros 8) } } : State).d2d.reportBody = some (1, zeros 32, zeros 8)
    ∧ (let free := hosted.modPart 1 fun q => { q with bound := false, nonce := some (zeros 64, 0) }
       free.doeFree = true ∧ free.bindStatus 5 (doe 2 72 [7]) = 0 ∧ free.slatesOn = true ∧ hosted.bindStatus 5 (doe 2 72 [7]) ≠ 0
       ∧ badMsg (doe 3 8 [7]) 3 8 = false ∧ (free.part 1).bound = false ∧ (1 : Nat) ≠ 0
       ∧ badMsg (doe 4 0 []) 4 0 = false)
    ∧ (let s := hosted.modPart 1 fun q => { q with domain := 7 }
       s.doeFree = true ∧ (s.part 1).bound = true ∧ (s.part 1).domain = leAt (doe 3 8 [7]).payload 0 8 ∧ s.slatesOn = true)
    ∧ (let s := (hosted.modPart 1 fun q => { q with bindReq := some (7, 3), unbindReq := some 3 })
       let s := { s with clap := { s.clap with num := 4 } }
       (s.part 1).bindReq = some (7, 3) ∧ (s.part 1).unbindReq = some 3 ∧ s.slatePassed 3 = true ∧ s.slatePassed 4 = false
       ∧ (s.part 1).bound = true)
    ∧ (live.doeFree = false ∧ live.d2d.reportBody = none ∧ (live.part 1).bindReq = none ∧ (live.part 1).unbindReq = none)
    ∧ (let s := { hosted.modPart 1 fun q => { q with bound := false, nonce := some (zeros 64, 0) } with clap := { hosted.clap with run := false } }
       s.doeFree = true ∧ s.slatesOn = false ∧ s.bindStatus 5 (doe 2 72 [7]) = 0)
    ∧ (let s := { hosted.modPart 1 fun q => { q with domain := 7 } with clap := { hosted.clap with run := false } }
       s.doeFree = true ∧ s.slatesOn = false ∧ badMsg (doe 3 8 [7]) 3 8 = false ∧ (s.part 1).bound = true ∧ (s.part 1).domain = 7)
    ∧ badMsg (doe 4 1 []) 4 0 = true ∧ badMsg (doe 4 0 []) 4 0 = false := by decide +kernel

/-! ### Ports and conversations -/

theorem witness_PortEvents :
    (let s := (joined 0 5 live).modPort 0 fun p => { p with linkUp := false }
     (s.port 0).opened = true ∧ (s.port 0).linkUp = false ∧ s.pageOn (pgPort 0) = true)
    ∧ (let s := joined 0 5 live
       (s.port 0).opened = true ∧ (s.port 0).linkUp = true ∧ (s.port 0).saltTx = some 1
       ∧ (0 : Nat) ≠ 8 ∧ ((s.port 0).keys.find? fun k => k.an = 1) = none
       ∧ ((s.port 0).keys.find? fun k => k.an = 0) = some { an := 0, salt := 1, src := 9 } ∧ (1 : Nat) = 1 % 2 ^ 128)
    ∧ (let s := (joined 0 5 live).modPort 0 fun p => { p with keys := [{ an := 0, salt := 1, src := 9, active := true, last := 100 }] }
       ((s.port 0).keys.find? fun k => k.an = 0) = some { an := 0, salt := 1, src := 9, active := true, last := 100 }
       ∧ max s.now 101 < 100 + s.silenceT 0)
    ∧ (let s := ((joined 0 5 live).wr (pgPort 0) 0x68 3).modPort 0 fun p => { p with macFails := [1, 2, 3, 4] }
       s.rdn (pgPort 0) 0x68 < (s.port 0).macFails.length ∧ (live.port 0).macFails.length ≤ live.rdn (pgPort 0) 0x68)
    ∧ DropReason.badFcs ≠ .malformed := by decide +kernel

/-- Closed and down ports; the continuity port and an origin that is not the twin; a key that has stopped working. -/
theorem witness_PortEvents_else :
    ((live.port 0).opened = false ∧ (live.port 0).linkUp = false ∧ (live.port 0).saltTx = none)
    ∧ (let s := joined 8 1 live
       (s.port 8).opened = true ∧ (s.port 8).linkUp = true ∧ s.isTwin 9 = false)
    ∧ (let s := (joined 0 5 live).modPort 0 fun p => { p with keys := [{ an := 0, salt := 1, src := 9, active := true, last := 0 }] }
       0 + s.silenceT 0 ≤ max s.now (10 ^ 12) ∧ (1 : Nat) ≠ 2) := by decide +kernel


/-- Port 0 carries slate and MIX conversations; one stands, of kind 4 and number 1 with module 5. -/
def talking (c : Conv) : State :=
  let s := reg (joined 0 0x1F (sourced 2)) pgGlobal 0x4C 5
  { s with links := { s.links with convs := [c], nextConv := 2 }, sec := { s.sec with rngOk := true } }

def conv (ini : Bool) (st : ConvSt) : Conv :=
  { id := 1, port := 0, kind := 4, conv := 1, peer := 5, initiator := ini, st := st, epoch := 11, peerEpoch := 12, seq := 100 }

def rx (ty peerEpoch : Nat) (f : Frame) : RxFrame :=
  { port := 0, f := { f with typ := ty, kind := 4, src := 5, conv := 1, epoch := 12, peerEpoch := peerEpoch } }

theorem witness_InitiatorFrames :
    (∀ st ∈ [ConvSt.opening, .opn, .closing, .silent],
      (talking (conv true st)).convsOk = true
      ∧ ∀ r ∈ [rx tyOpenAck 11 { credit := 8 }, rx tyAck 11 { ack := 100, credit := 8 }, rx tyAck 11 { ack := 101 }, rx tyCloseAck 11 {},
          rx tyReset 11 { payload := [0, 1] }, rx tyAck 13 { ack := 100 }],
        (talking (conv true st)).authentic r = true ∧ (talking (conv true st)).initiatorOf r = some (conv true st))
    ∧ (let c := conv true .opn
       (rx tyOpenAck 11 { credit := 8 }).f.formed tyOpenAck = true ∧ c.matches (rx tyOpenAck 11 { credit := 8 }).f = true
       ∧ c.closeReq = false ∧ (rx tyAck 11 { ack := 100, credit := 8 }).f.formed tyAck = true
       ∧ ackBeyond c (rx tyAck 11 { ack := 100, credit := 8 }).f = false ∧ (rx tyAck 11 { ack := 101 }).f.formed tyAck = true
       ∧ ackBeyond c (rx tyAck 11 { ack := 101 }).f = true ∧ (rx tyCloseAck 11 {}).f.formed tyCloseAck = true
       ∧ (rx tyReset 11 { payload := [0, 1] }).f.formed tyReset = true ∧ c.matchesReset (rx tyReset 11 { payload := [0, 1] }).f = true
       ∧ (rx tyAck 13 { ack := 100 }).f.formed tyAck = true ∧ c.matches (rx tyAck 13 { ack := 100 }).f = false)
    ∧ (talking (conv true .opn)).sec.rngOk = true := by decide +kernel

/-- A frame without a key, one with a bad ICV, one whose number has been seen, and one that is not formed as its type asks. -/
theorem witness_PortEvents_received :
    (let s := talking (conv true .opn)
     let r := rx tyProbe 11 {}
     (s.port 0).opened = true ∧ (s.port 0).linkUp = true ∧ (s.port 0).dropNext = 0
     ∧ ((s.port 0).keys.find? fun k => k.an = 1) = none ∧ { r with icvOk := false }.icvOk = false
     ∧ ((s.port 0).keys.find? fun k => k.an = 0) = some { an := 0, salt := 1, src := 9 }
     ∧ ({ an := 0, salt := 1, src := 9, seen := [1] } : RxKey).accepts r.pn = false
     ∧ s.authentic r = true ∧ r.f.formed tyAck = false) := by decide +kernel

/-- No conversation stands. -/
def quiet : State :=
  let s := talking (conv true .opn)
  { s with links := { s.links with convs := [] } }

/-- Frames for no conversation, and frames of an initiator's kind for a responder. -/
theorem witness_InitiatorFrames_else :
    (∀ r ∈ [rx tyOpenAck 11 { credit := 8 }, rx tyAck 11 {}, rx tyCloseAck 11 {}, rx tyReset 11 { payload := [0, 1] }],
      quiet.authentic r = true ∧ r.f.formed r.f.typ = true ∧ quiet.initiatorOf r = none ∧ quiet.responderOf r = none
      ∧ quiet.portSends 0 = true
      ∧ (let s := talking (conv false .opn)
         s.authentic r = true ∧ s.initiatorOf r = none ∧ s.responderOf r ≠ none))
    ∧ ({ talking (conv true .opn) with sec := { live.sec with rngOk := false } } : State).sec.rngOk = false
    ∧ (conv true .opn).matchesReset (rx tyReset 13 { payload := [0, 1] }).f = false := by decide +kernel

/-- Other forms: a full port, a held frame, an initiator's own frames, and numbers at the window's ends. -/
theorem witness_ResponderFrames_else :
    (let l := (List.range 256).map fun k => { conv false .opn with id := k, conv := k + 10 }
     let s := { quiet with links := { quiet.links with convs := l, nextConv := 300 } }
     let r := rx tyOpen 0 {}
     s.authentic r = true ∧ s.responderOf r = none ∧ s.openReason 0 r.f = none ∧ 256 ≤ (s.portConvs 0).length)
    ∧ (let c := { conv false .opn with held := [(rx tyData 11 { seq := 101 }).f] }
       (c.held.any fun x => x.seq = 101) = true ∧ serial 163 c.seq < 64 ∧ (talking c).creditOf 0 = 64 ∧ (64 : Int) ≤ serial 164 c.seq)
    ∧ (let s := talking (conv true .opn)
       ∀ r ∈ [rx tyData 11 {}, rx tyProbe 11 {}, rx tyClose 11 {}],
         s.authentic r = true ∧ r.f.formed r.f.typ = true ∧ s.responderOf r = none ∧ s.initiatorOf r ≠ none
         ∧ s.openReason 0 r.f = none)
    ∧ (let s := reg (talking (conv true .opn)) pgGlobal 0x4C 6
       let r := rx tyProbe 11 {}
       s.authentic r = true ∧ s.responderOf r = none ∧ s.initiatorOf r ≠ none ∧ s.openReason 0 r.f ≠ none)
    ∧ (conv false .opn).matches (rx tyProbe 13 {}).f = false := by decide +kernel

theorem witness_ResponderFrames :
    (let r := rx tyOpen 0 {}
     quiet.authentic r = true ∧ quiet.convsOk = true ∧ r.f.formed tyOpen = true ∧ quiet.responderOf r = none
     ∧ quiet.openReason 0 r.f = none ∧ (quiet.portConvs 0).length < 256 ∧ quiet.sec.rngOk = true ∧ quiet.portSends 0 = true
     ∧ quiet.openReason 0 { r.f with conv := 3 } = some 2)
    ∧ (let s := talking { conv false .opn with peerEpoch := 13 }
       s.responderOf (rx tyOpen 0 {}) = some { conv false .opn with peerEpoch := 13 } ∧ (13 : Nat) ≠ (rx tyOpen 0 {}).f.epoch)
    ∧ (∀ st ∈ [ConvSt.opn, .silent], ∀ r ∈ [rx tyProbe 11 {}, rx tyClose 11 { seq := 100 }, rx tyClose 11 { seq := 99 }, rx tyData 11 { seq := 99 },
        rx tyData 11 { seq := 100 }, rx tyData 11 { seq := 101 }, rx tyData 11 { seq := 163 }, rx tyData 11 { seq := 164 }],
        let s := talking (conv false st)
        s.authentic r = true ∧ s.convsOk = true ∧ s.responderOf r = some (conv false st) ∧ (conv false st).matches r.f = true
        ∧ r.f.formed r.f.typ = true)
    ∧ (let c := conv false .opn
       let s := talking c
       (rx tyClose 11 { seq := 100 }).f.seq = c.seq ∧ serial 99 c.seq < 0 ∧ (s.creditOf 0 : Int) ≤ serial 164 c.seq
       ∧ 0 < serial 101 c.seq ∧ serial 101 c.seq < s.creditOf 0 ∧ c.held = [])
    ∧ (let r := rx tyData 11 {}
       quiet.responderOf r = none ∧ quiet.initiatorOf r = none ∧ quiet.portSends 0 = true ∧ r.f.formed tyData = true) := by decide +kernel

theorem witness_ConversationTimers :
    (quiet.conv 1 = none ∧ quiet.findConv 0 4 1 5 true = none ∧ quiet.mayOpen 0 4 7 5 0 = false) ∧
    (∀ st ∈ [ConvSt.opening, .opn, .closing, .silent], ∀ ini ∈ [true, false],
      (talking (conv ini st)).conv 1 = some (conv ini st) ∧ (talking (conv ini st)).portSends 0 = true)
    ∧ (let s := talking (conv true .opening)
       (conv true .opening).sentOpens < s.openLimit 0 ∧ s.openLimit 0 ≤ ({ conv true .opening with sentOpens := 1000 } : Conv).sentOpens
       ∧ s.rexmitLimit 0 ≤ ({ uid := 1, f := {}, resent := 1000 } : OutFrame).resent
       ∧ ({ uid := 1, f := {} } : OutFrame).resent < s.rexmitLimit 0 ∧ s.sec.rngOk = true
       ∧ s.silenceLimit 0 ≤ ({ conv true .opn with silences := 1000 } : Conv).silences + 1)
    ∧ (let s := reg (talking (conv true .opn)) (pgPort 0) 0x54 0x30064
       (conv true .opn).silences + 1 < s.silenceLimit 0)
    ∧ 0 < ({ conv false .opn with unacked := 1 } : Conv).unacked
    ∧ (let s := reg (withReels [{ reelA with way := 1, groupSize := 2 }] quiet) pgGlobal 0x48 2
       s.convsOk = true ∧ s.portCtl 0 0 = true ∧ s.mayOpen 0 4 0 5 0 = true ∧ (s.portConvs 0).length < 256
       ∧ s.findConv 0 4 0 5 true = none ∧ s.sec.rngOk = true ∧ s.portSends 0 = true)
    ∧ (let s := talking (conv true .opn)
       s.convsOk = true ∧ s.findConv 0 4 1 5 true = some (conv true .opn) ∧ (conv true .opn).flight = [] ∧ (conv true .opn).outq = []
       ∧ [({ uid := 1, f := {} } : OutFrame)] ≠ []) := by decide +kernel

/-! ### Take input, the twin, rehearsals and the Dailies -/

/-- The class A reel takes one channel, number 7 of module 9: 64 bytes a tick. -/
def taking (c : Nat) (m : TakeMsg) : State :=
  let table := leBytes 4 takeMagic ++ leBytes 2 1 ++ leBytes 2 4 ++ leBytes 4 64 ++ zeros 4 ++ leBytes 8 0x4000 ++ zeros 8
    ++ leBytes 2 7 ++ leBytes 2 9 ++ leBytes 4 64 ++ leBytes 4 0 ++ [5] ++ zeros 3
  let r := { reelA with image := zeros 0x70 ++ leBytes 8 0x80 ++ leBytes 8 0x30 ++ table }
  let s := withReels [r] part1
  { s with
    sched := { s.sched with ticks := [{ tick := 3, p := 1, handle := 2 }], takes := [m] }
    clap := { s.clap with num := c } }

theorem witness_TakeInput :
    (let s := taking 4 { ch := 7, tick := 3, port := 2 }
     (∃ r k c, s.takeChanOf 7 3 = some (r, k, c) ∧ (s.takeMsg 7 3).done = false ∧ s.takePort c (s.takeMsg 7 3) ≤ 8)
     ∧ s.clap.num = 3 + 1 ∧ (s.takeMsg 7 3).late = false)
    ∧ (let s := taking (4 + live.takeWait 2) { ch := 7, tick := 3, port := 2, late := true }
       s.clap.num = 3 + 1 + s.takeWait 2 ∧ s.twin.role ≠ .double)
    ∧ (let m : InBox := { port := 2, kind := 5, conv := 0, peer := 9, part := 0, msg := 0,
                          data := beBytes 8 4 ++ beBytes 2 0xFFFF ++ zeros 2 ++ beBytes 4 1 ++ beBytes 4 6 ++ zeros 4 }
       let s := { live with links := { live.links with inbox := [m] } }
       s.links.inbox.find? (fun m => m.kind = 5 && m.port = 2) = some m ∧ m.data.length = 24 ∧ beAt m.data 8 2 = 0xFFFF
       ∧ beAt m.data 12 4 = 1 ∧ live.links.inbox = [])
    ∧ (let m : InBox := { port := 0, kind := 5, conv := 0, peer := 9, part := 0, msg := 0,
                          data := beBytes 8 4 ++ beBytes 2 7 ++ zeros 2 ++ beBytes 4 0 ++ beBytes 4 6 ++ zeros 4 }
       let c : Conv := { conv true .silent with kind := 1, conv := 7, peer := 9 }
       let s := { live with links := { live.links with inbox := [m], convs := [c], nextConv := 2 } }
       s.links.inbox.find? (fun m => m.kind = 5 && m.port = 0) = some m ∧ m.data.length = 24 ∧ s.takes = none ∧ s.convsOk = true
       ∧ s.findConv 0 1 (beAt m.data 8 2) 9 true = some c ∧ c.closeReq = false)
    ∧ (live.takeChanOf 7 3 = none ∧ (taking 9 { ch := 7, tick := 3, port := 2 }).clap.num ≠ 3 + 1) :=
  ⟨⟨⟨_, _, _, by rfl, by decide +kernel, by decide +kernel⟩, by decide +kernel⟩, by decide +kernel, by decide +kernel, by decide +kernel, by decide +kernel⟩

def twinned (f : Twin → Twin) : State :=
  let s := reg (withReels [{ reelA with reelDigest := zeros 64 }] part1) pgTwin 0x48 3
  { s with twin := f s.twin, clap := { s.clap with num := 9 } }

theorem witness_ClaimsAndCommands :
    ((twinned fun w => { w with sense := true, role := .double, step := .inStep }).twin.sense = true
      ∧ (twinned fun w => w).allowClaim = true ∧ (twinned fun w => w).yieldOnGrave = true ∧ live.twin.sense = false)
    ∧ (let s := twinned fun w => { w with role := .double, step := .inStep, claim := some { kind := 1, since := 5 } }
       s.twin.claim = some { kind := 1, since := 5 } ∧ 5 + s.holdoff ≤ 5 + s.holdoff ∧ s.claimOk 1 = true ∧ s.claimOk 2 = true)
    ∧ (twinned fun w => { w with role := .double, step := .syncing }).claimOk 1 = false
    ∧ (let s := twinned fun w => { w with role := .principal, drive := true }
       s.twin.drive = true ∧ s.twin.sense = false ∧ s.twin.fault = false ∧ s.twin.grave = false ∧ GraveKind.stateBreak ≠ .lateRun)
    ∧ ((GraveKind.stateBreak ≠ .stateBreak ∧ GraveKind.stateBreak ≠ .lateRun) ∨ (twinned fun w => { w with role := .principal }).twin.role = .principal)
    ∧ (∀ x ∈ twinRows, live.writable pgTwin 0x44 (word (2 ^ x.2)) = true)
    ∧ (live.cmdOk 1 true = false ∧ live.cmdOk 2 true = false ∧ live.cmdOk 3 true = false ∧ live.cmdOk 4 true = false
      ∧ live.cmdOk 5 true = false ∧ live.cmdOk 6 true = false ∧ (twinned fun w => { w with role := .principal }).cmdOk 0 true = false)
    ∧ (live.cmdOk 0 true = true ∧ live.twin.claim = none ∧ ({ live with twin := { live.twin with claimPending := true } } : State).twin.claimPending = true)
    ∧ (∀ run ∈ [true, false],
        let at' (s : State) : State := { s with clap := { s.clap with run := run } }
        (at' (reg live pgTwin 0x40 0x10009)).cmdOk 1 true = true
        ∧ (at' (twinned fun w => { w with role := .principal })).cmdOk 2 true = true
        ∧ (at' ((twinned fun w => { w with role := .principal }).wr pgTwin 0x5C 12)).cmdOk 3 true = true
        ∧ (at' ((twinned fun w => { w with role := .principal }).wr pgTwin 0x5C 11)).cmdOk 3 true = false
        ∧ (at' (twinned fun w => { w with role := .double })).cmdOk 4 true = true
        ∧ (at' (twinned fun w => { w with handover := true, handoverAt := 10 })).cmdOk 5 true = true
        ∧ (at' live).slatesOn = run) := by decide +kernel

/-- A continuity message of take epoch e for tick n, with one CTX entry: context 4 of partition 1, admitted. -/
def contOf (e n : Nat) (reel : Byte) : InBox :=
  let head := leBytes 4 contMagic ++ leBytes 2 1 ++ leBytes 2 0 ++ leBytes 8 n ++ leBytes 4 e ++ zeros 4 ++ (reel :: zeros 7) ++ leBytes 8 n
  let ctx := leBytes 4 1 ++ leBytes 4 (4 + 2 ^ 24) ++ leBytes 4 3 ++ zeros 244
  { port := 8, kind := 3, conv := 0, peer := 9, part := 0, msg := n,
    data := fitBytes 0x98 head ++ leBytes 4 0x100 ++ leBytes 4 256 ++ zeros 0x60 ++ ctx }

/-- A parked context of partition 1 that waits to be restored at index i, which is in state st here. -/
def restoring (i st dst : Nat) : State :=
  let s := ctx0 st 0 (twinned fun w => { w with
    role := .principal, restoreAt := some 8, table := [(i, some (1, { state := dst, index := i, ver := 3, reel := 1 }))] })
  s

/-- A PARK message of kind k for context 4 of partition 1, at a double; q is PARK_RANGE of partition 1. -/
def parking (k q : Nat) (data : Bytes) : State :=
  let s := (twinned fun w => { w with role := .double }).wr (pgPart 1) 0x4C (word q)
  { s with links := { s.links with inbox := [{ port := 8, kind := 6, conv := 1, peer := 9, part := 1, msg := 4 + k * 2 ^ 24 + 2 ^ 32, data := data }] } }

theorem placed_one (s : State) (p n key : Nat) (g : Nat × Nat)
    (h : ((rangeGaps (s.parkUsed p) 0 (s.pkSize p / parkGran)).filter fun (g : Nat × Nat) =>
      decide (sumNat ((s.parkUsed p).map fun (g : Nat × Nat) => g.2) + n ≤ s.rdn (pgPart p) 0x50) && decide (n ≤ g.2)) = [g]) :
    ∃ f u, s.parkAlloc p n key = some (f, u) := by
  unfold State.parkAlloc
  simp only [h, State.draw, List.length_singleton, Nat.max_self, Nat.mod_one, List.getElem?_cons_zero]
  exact ⟨_, _, rfl⟩

theorem placed_none (s : State) (p n key : Nat)
    (h : ((rangeGaps (s.parkUsed p) 0 (s.pkSize p / parkGran)).filter fun (g : Nat × Nat) =>
      decide (sumNat ((s.parkUsed p).map fun (g : Nat × Nat) => g.2) + n ≤ s.rdn (pgPart p) 0x50) && decide (n ≤ g.2)) = []) :
    s.parkAlloc p n key = none := by
  unfold State.parkAlloc
  simp only [h, List.getElem?_nil]

theorem witness_TwinTraffic_slates :
    (let s := twinned fun w => { w with role := .principal, handover := true, handoverAt := 9 }
     s.twin.role = .principal ∧ s.twin.handover = true ∧ s.twin.handoverAt = s.clap.num)
    ∧ (let s := twinned fun w => { w with role := .double, step := .inStep, sense := true, handoverSeen := 9 }
       ({ s with sched := { s.sched with ticks := [{ tick := 7, p := 1, handle := 2, verdict := 1 }] } } : State).proceeds = true)
    ∧ (∀ x ∈ [(0, 0, 1), (0, 5, 4), (0, 3, 1), (2 ^ 20, 0, 1)],
        let s := restoring x.1 x.2.1 x.2.2
        s.twin.restoreAt = some 8 ∧ s.twin.role = .principal ∧ 8 ≤ s.clap.num ∧ s.twin.table = [(x.1, some (1, { state := x.2.2, index := x.1, ver := 3, reel := 1 }))]
        ∧ (s.part 1).bound = true ∧ x.2.2 ≠ 0 ∧ x.2.2 ≠ 5)
    ∧ ((restoring 0 0 1).ctxOf 1 0 = true ∧ ((restoring 0 0 1).desc 0).state = 0 ∧ ((restoring 0 3 1).desc 0).state ≠ 0
      ∧ (restoring (2 ^ 20) 0 1).ctxOf 1 (2 ^ 20) = false ∧ mget (fun _ => none) (restoring 0 5 4).twin.images 0 = none)
    ∧ (let s := reg (twinned fun w => { w with gap := true, gapF := some 7, gapS := some 5 }) pgGlobal 0x48 9
       s.twin.gap = true ∧ s.twin.gapF = some 7 ∧ 7 + 2 ≤ s.clap.num ∧ s.twin.slow = false ∧ 8 < s.groupSize
       ∧ ({ s with clap := { s.clap with num := 21 } } : State).twin.gapS = some 5)
    ∧ (let s := { live with twin := { live.twin with gap := true } }
       s.twin.gapF = none ∧ s.classALoaded = false) := by decide +kernel

def inboxed (m : InBox) : State :=
  let s := twinned fun w => { w with role := .double, takeEpoch := 2 }
  { s with links := { s.links with inbox := [m] } }

theorem witness_TwinTraffic_messages :
    (∀ m ∈ [contOf 2 8 0, contOf 2 7 0, contOf 1 8 0, contOf 2 8 1],
      ((inboxed m).links.inbox.find? fun m => m.kind = 3) = some m ∧ (inboxed m).twin.role = .double
      ∧ leAt m.data 0 4 = contMagic ∧ leAt m.data 4 2 = 1 ∧ (leAt m.data 6 2).testBit 0 = false)
    ∧ ((inboxed (contOf 2 8 0)).contReel (contOf 2 8 0).data = true ∧ (inboxed (contOf 2 8 1)).contReel (contOf 2 8 1).data = false
      ∧ leAt (contOf 1 8 0).data 0x10 4 < 2 ∧ 9 < leAt (contOf 2 8 0).data 8 8 + 2 ∧ leAt (contOf 2 7 0).data 8 8 + 2 ≤ 9)
    ∧ (let s := twinned fun w => { w with role := .principal, notices := [(2, 5, 6), (1, 7, 8)] }
       s.twin.role = .principal ∧ s.twin.notices.find? (fun (x : Nat × Nat × Nat) => x.1 = 1) = some (1, 7, 8)
       ∧ s.twin.notices.find? (fun (x : Nat × Nat × Nat) => x.1 = 2) = some (2, 5, 6))
    ∧ (∀ k ∈ [1, 2, 3], ∀ q ∈ [0x10000, 0],
        let s := parking k q (zeros 4096)
        (s.links.inbox.find? fun m => m.kind = 6 && m.msg / 2 ^ 24 % 16 = k).isSome = true ∧ s.twin.role = .double
        ∧ (s.part 1).enabled = true ∧ (s.part 1).bound = true)
    ∧ (mergeCkpt none (zeros 4096) = some (zeros 4096) ∧ mergeCkpt none (zeros 256 ++ [1] ++ zeros 4095) = none) := by decide +kernel

theorem witness_TwinTraffic_places :
    (∃ f u, ((parking 2 0x10000 (zeros 4096)).dropImage 1 4).parkAlloc 1 (ceilDiv (zeros 4096).length parkGran) (twinKey 4) = some (f, u))
    ∧ ((parking 2 0 (zeros 4096)).dropImage 1 4).parkAlloc 1 (ceilDiv (zeros 4096).length parkGran) (twinKey 4) = none :=
  ⟨placed_one _ _ _ _ (0, 16384) (by decide +kernel), placed_none _ _ _ _ (by decide +kernel)⟩

theorem witness_LateMessages :
    (let m := contOf 2 7 0
     let s := inboxed m
     (s.links.inbox.find? fun m => m.kind = 3) = some m ∧ s.twin.role = .double ∧ leAt m.data 0 4 = contMagic ∧ leAt m.data 4 2 = 1
     ∧ s.contReel m.data = true ∧ s.twin.takeEpoch ≤ leAt m.data 0x10 4 ∧ (leAt m.data 6 2).testBit 0 = false ∧ leAt m.data 8 8 + 2 ≤ s.clap.num
     ∧ 0 < (contSection m.data 3).length / 256 ∧ (Desc.parse (((contSection m.data 3).drop (256 * 0)).take 256)).state ≠ 0)
    ∧ (∀ d ∈ [zeros 64, List.replicate 64 1],
        let t : TickRun := { tick := 7, p := 1, handle := 2, valid := true, digest := d }
        let s := { inboxed (contOf 2 7 0) with sched := { (inboxed (contOf 2 7 0)).sched with ticks := [t] } }
        s.tickRun (leAt (contOf 2 7 0).data 8 8) = some t ∧ t.valid = true ∧ contSection (contOf 2 7 0).data 1 = []
        ∧ (leAt (contOf 2 7 0).data 6 2).testBit 1 = false
        ∧ (t.digest = ((contOf 2 7 0).data.drop 0x40).take 64 ↔ d = zeros 64)) := by decide +kernel

/-- Entry 3: kind k at a page, once, at slate 2; armed or not. -/
def rehearsing (k sub pg : Nat) (armed : Bool) : State :=
  let s := ((live.wr pgReh (rehCfg 3) (word (k + 16 * sub + 256))).wr pgReh (rehCfg 3 + 4) (word pg)).wr pgReh (rehCfg 3 + 8) 2
  { s with reh := { s.reh with armed := armed }, clap := { s.clap with num := 2 } }

def dumping (n : Nat) : State :=
  let s := (part1.wr (pgPart 0) 0x48 0x10005).wr pgDailies 0x54 0x100
  { s with dly := { s.dly with recs := [{ tick := 1, kind := 5 }], dumpSt := n, dumping := [{ tick := 1, kind := 5 }], dumpAddr := 0x100 } }

theorem witness_RehearsalAndDailies :
    (let s := rehearsing 1 1 (pgFocus 3) false
     s.writable pgReh 0x40 1 = true ∧ s.writable pgReh 0x40 0 = true ∧ bit (s.rd pgReh 0x40) 0 = false ∧ 0 < s.entryRepeat 3 ∧ s.entryOk 3 = false)
    ∧ (let s := rehearsing 1 0 (pgFocus 3) false
       (∀ e, e < 16 → 0 < s.entryRepeat e → s.entryOk e = true) ∧ s.slatesOn = true)
    ∧ (∀ x ∈ [(1, 0, pgFocus 3), (2, 0, pgChan 4), (3, 2, pgPort 1), (4, 0, pgClapper), (5, 0, pgClapper), (6, 0, pgTwin), (7, 0, pgScript), (8, 0, pgTwin)],
        let s := rehearsing x.1 x.2.1 x.2.2 true
        s.firingDue 3 = true ∧ s.targetHolds (s.entryKind 3) (s.entryTarget 3) = false ∧ s.targetShut (s.entryTarget 3) = false
        ∧ s.entryKind 3 = x.1 ∧ (x.1 = 6 → s.twin.role ≠ .principal))
    ∧ ({ rehearsing 6 0 pgTwin true with twin := { live.twin with role := .principal } } : State).twin.role = .principal
    ∧ (let s := dumping 0
       s.writable pgDailies 0x5C 1 = true ∧ s.dly.dumpSt ≠ 1 ∧ s.inSpace 0 (s.rd64 pgDailies 0x54) (32 * s.dly.recs.length) = true
       ∧ s.writable pgDailies 0x5C 2 = true)
    ∧ (live.inSpace 0 (live.rd64 pgDailies 0x54) (32 * 4) = false)
    ∧ ((dumping 1).dly.dumpSt = 1 ∧ ((dumping 1).begin.store { p := 0 } (dumping 1).dly.dumpAddr ((dumping 1).dly.dumping.flatMap dailyBytes)).1 = none)
    ∧ (let s := { live with dly := { live.dly with dumpSt := 1, dumping := [{ tick := 1, kind := 5 }], dumpAddr := 2 ^ 40 } }
       s.dly.dumpSt = 1 ∧ (s.begin.store { p := 0 } s.dly.dumpAddr (s.dly.dumping.flatMap dailyBytes)).1 ≠ none) := by decide +kernel

/-! ### Where the same commands do nothing, or otherwise -/

theorem witness_ClaimsAndCommands_else :
    ((∀ w ∈ [false, true], (twinned fun x => { x with sense := true, drive := w, claimPending := !w }).twin.claimPending = !w)
      ∧ (twinned fun x => { x with sense := true, role := .double, step := .syncing }).twin.claimPending = false)
    ∧ (live.twin.claim = none ∧ live.twin.drive = false ∧ live.twin.sense = false ∧ live.twin.fault = false)
    ∧ (let s := twinned fun w => { w with claim := some { kind := 2, since := 5 } }
       4 < 5 + s.holdoff ∧ s.twin.claim = some { kind := 2, since := 5 } ∧ s.claimOk 2 = true)
    ∧ ((twinned fun w => { w with role := .double }).twin.role ≠ .principal ∧ (twinned fun w => { w with role := .double }).twin.role ≠ .none
      ∧ (twinned fun w => { w with grave := true }).twin.grave = true ∧ GraveKind.storeLink ≠ GraveKind.stateBreak)
    ∧ ((∀ x ∈ [true, false], ({ live with twin := { live.twin with sense := x } } : State).cmdOk 0 true = true)
      ∧ ({ live with twin := { live.twin with claim := some { kind := 2, since := 5 } } } : State).cmdOk 0 true = true) := by decide +kernel

theorem witness_TwinTraffic_else :
    (live.twin.role ≠ .principal ∧ live.proceeds = false ∧ live.twin.restoreAt = none ∧ live.twin.gap = false ∧ live.links.inbox = []
      ∧ live.twin.notices = [])
    ∧ (let s := twinned fun w => { w with role := .principal, restoreAt := some 10 }
       s.twin.restoreAt = some 10 ∧ s.twin.role = .principal ∧ s.clap.num < 10)
    ∧ (let s := (restoring 0 0 1).modPart 1 fun q => { q with bound := false }
       (s.part 1).bound = false ∧ s.twin.role = .principal)
    ∧ (let s := twinned fun w => { w with gap := true, gapF := some 8, gapS := some 5 }
       s.twin.gap = true ∧ s.twin.gapF = some 8 ∧ s.clap.num < 8 + 2)
    ∧ (let s := twinned fun w => { w with gap := true }
       s.twin.gapF = none ∧ s.classALoaded = true)
    ∧ (let s := { inboxed (contOf 2 8 0) with twin := { (inboxed (contOf 2 8 0)).twin with role := .principal } }
       (s.links.inbox.find? fun m => m.kind = 3) = some (contOf 2 8 0) ∧ s.twin.role ≠ .double)
    ∧ (let s := twinned fun w => { w with role := .double, notices := [(2, 5, 6), (1, 7, 8)] }
       s.twin.role ≠ .principal ∧ s.twin.notices.find? (fun (x : Nat × Nat × Nat) => x.1 = 1) ≠ none)
    ∧ (let s := (parking 1 0 (zeros 4096)).modPart 1 fun q => { q with bound := false }
       s.twin.role = .double ∧ (s.part 1).bound = false)
    ∧ (parking 1 0 (zeros 4096)).twin.role = .double ∧ ({ parking 1 0 (zeros 4096) with twin := live.twin } : State).twin.role ≠ .double := by
  decide +kernel

/-- A paused context whose image stands in the park tier. -/
theorem witness_TwinTraffic_images :
    (let s := restoring 0 0 4
     let s := { s with twin := { s.twin with images := [(0, some { part := 1, first := 0, gran := 1, kind := 2, ver := 3 })] } }
     let s := s.modCtl 8 fun c => { c with up := 255 }
     mget (fun _ => none) s.twin.images 0 = some { part := 1, first := 0, gran := 1, kind := 2, ver := 3 } ∧ s.ctxOf 1 0 = true
     ∧ (s.desc 0).state = 0
     ∧ (({ s.begin with twin := { s.twin with restoreAt := none } } : State).loadPark 1 ckptUnit (s.granPpa 1 0) 256).1.toOption.isSome = true) := by
  decide +kernel

theorem witness_RehearsalAndDailies_else :
    ((rehearsing 1 0 (pgFocus 3) false).firingDue 3 = false)
    ∧ (let s := rehearsing 1 0 (pgFocus 3) true
       let s := { s with reh := { s.reh with live := [{ entry := 0, kind := 1, page := pgFocus 3 }] } }
       s.firingDue 3 = true ∧ s.targetHolds (s.entryKind 3) (s.entryTarget 3) = true)
    ∧ (let s := reg (rehearsing 1 0 (pgFocus 3) true) (pgFocus 3) 0x40 1
       s.firingDue 3 = true ∧ s.targetShut (s.entryTarget 3) = true)
    ∧ (dumping 1).dly.dumpSt = 1 ∧ (dumping 1).writable pgDailies 0x5C 1 = true ∧ (dumping 1).writable pgDailies 0x5C 2 = true
    ∧ live.dly.dumpSt ≠ 1
    ∧ (idle.slatesOn = false ∧ idle.writable pgReh 0x40 1 = true) := by decide +kernel

/-! ### Families -/

theorem witness_ProtocolFrames : timingRow .clapLost = true ∧ linkRow (.portLinkUp 0) = true ∧ twinRow .takeSenseLow = true
    ∧ exec .clapLost live = .next live.begin ∧ (∃ t, exec (.portLinkUp 0) live = .next t) ∧ ∃ t, exec .takeSenseLow live = .next t :=
  ⟨rfl, rfl, rfl, rfl, ⟨_, rfl⟩, ⟨_, rfl⟩⟩

theorem witness_SupportFrames : powerRow (.feedPresent true) = true ∧ sealRow (.svnCommit 0) = true
    ∧ (∃ t, exec (.feedPresent true) live = .next t) ∧ ∃ t, exec (.svnCommit 0) live = .next t :=
  ⟨rfl, rfl, ⟨_, rfl⟩, ⟨_, rfl⟩⟩

theorem witness_FusesRise : step State.reset = .next State.reset := rfl


/-! ### Worked examples of the spec -/

/-- The three products of chapter 3's first worked example, as E4M3 codes (1.375 is 0x3B, 0.625 is 0x32, …). -/
def threeProducts (a : Int) : Led :=
  ({ anchor := a } : Led).dot ([0x3B, 0xAE, 0x45].map (decodeElem 2)) ([0x32, 0x34, 0x39].map (decodeElem 2))

theorem test_ledger_truncates : (threeProducts (-4)).x = 65 ∧ (threeProducts (-6)).x = 268 := by decide

/-- Chapter 3: X = 65 at A = −4 closes to the INT8 value 6, and to 4.0 in E4M3. -/
theorem test_close :
    (threeProducts (-4)).close { mult := 0x60000000, shift := 30, fmt := 0 } = { code := 6 }
    ∧ (threeProducts (-4)).close { mult := 1, shift := 0, fmt := 2 } = { code := 0x48 } := by decide

/-- Chapter 3: an INT8 tile with anchor −120 clamps 100 × 100 and takes 3 × 7. -/
theorem test_anchor_too_high :
    (({ anchor := -120 } : Led).dot [decodeElem 0 100] [decodeElem 0 100]) = { x := 2 ^ 127 - 1, anchor := -120, povf := true }
    ∧ (({ anchor := -120 } : Led).dot [decodeElem 0 3] [decodeElem 0 7]).x = 21 * 2 ^ 120 := by decide

/-- Chapter 4: the box (86, 31.5, 118, 47.5) is suppressed by (90, 32, 122, 48) at 0.5, with an intersection of 434 and a union of 590. -/
def exampleBox (x1 y1 x2 y2 : Nat) : Cand := { raw := zeros 32, box := { x1 := x1, y1 := y1, x2 := x2, y2 := y2 }, flags := 0 }

theorem test_suppression :
    suppresses (frameDesc (zeros 8 ++ leBytes 4 fHalf ++ zeros 52)) (exampleBox 0x42B40000 0x42000000 0x42F40000 0x42400000)
      (exampleBox 0x42AC0000 0x41FC0000 0x42EC0000 0x423E0000) = true
    ∧ suppresses (frameDesc (zeros 8 ++ leBytes 4 (fDiv (fOfNat 434) (fOfNat 590)) ++ zeros 52))
        (exampleBox 0x42B40000 0x42000000 0x42F40000 0x42400000)
        (exampleBox 0x42AC0000 0x41FC0000 0x42EC0000 0x423E0000) = false := by decide +kernel

/-- Chapter 6: the weights of top-k candidates 3.0, 2.0 and 1.0, and the leading run for TOP_P = 0.75. -/
theorem test_weights :
    [0x40400000, 0x40000000, 0x3F800000].map (weight 0x3F800000 0x40400000) = [4294967296, 2147483648, 1073741824]
    ∧ ceilTopP 0x3F400000 9663676416 = 7247757312 := by decide +kernel

theorem test_draw :
    (leadRun 7247757312 0 [(17, 4294967296), (902, 2147483648), (4410, 2147483648), (51, 1073741824)]).map (fun x => x.1) = [17, 902, 4410]
    ∧ drawRun (0x9000000000000000 * 2 ^ 33 / 2 ^ 64) 0 [(17, 4294967296), (902, 2147483648), (4410, 2147483648)] = some 902 := by
  decide

/-- Chapter 7: the link of PA 0x41234540. -/
theorem test_link : linkOf 0x41234540 = 17 := by decide
/-- Chapter 7: controller 4 sends the READ of that granule as 0x2008_2469, and its place leads back to it. -/
theorem test_octal : (LinkCmd.read (granOf 0x41234540)).word = 0x20082469 ∧ paOf 17 (loOf 0x41234540) = 0x41234540 := by decide

/-- The published vector of AES-256 (FIPS-197, C.3). -/
theorem test_aes : aesEnc (roundKeys (List.range 32)) ((List.range 16).map fun i => i * 17)
    = [0x8E, 0xA2, 0xB7, 0xCA, 0x51, 0x67, 0x45, 0xBF, 0xEA, 0xFC, 0x49, 0x90, 0x4B, 0x49, 0x60, 0x89] := by decide +kernel

/-- The published KMAC256 sample with "My Tagged Application" (NIST, sample 4), first bytes. -/
theorem test_kmac : (kmac256 ((List.range 32).map fun i => toByte (0x40 + i)) ((List.range 4).map toByte) 64 (ascii "My Tagged Application")).take 8
    = [0x20, 0xC5, 0x70, 0xC3, 0x13, 0x46, 0xF7, 0x03] := by decide +kernel

/-- GCM's first published vector with a 256-bit key (test case 13). -/
theorem test_gcm : gcmSeal (zeros 32) (zeros 12) [] [] = [0x53, 0x0F, 0x8A, 0xFB, 0xC7, 0x45, 0x36, 0xB9, 0xA9, 0x63, 0xB4, 0xF1, 0xC4, 0xCB, 0x73, 0x8B] := by
  decide +kernel

/-- Chapter 17: tray 7, slot 1 with the parity strap high, and 300 W as a LINEAR11 word. -/
theorem test_straps : strapRead (7 + 32 + 128) = (7, 1, false) ∧ strapRead (7 + 32) = (7, 1, true) := by decide
theorem test_linear11 : linear11 300 1 = 0xFA58 ∧ linear11Whole 0xFA58 = 300 := by decide

/-- The published vector of Philox4x32-10 with key and counter 0. -/
theorem test_philox : philox 0 0 0 0 0 0 = [0x6627E8D5, 0xE169C58D, 0xBC57AC4C, 0x9B00DBD8] := by decide +kernel

/-- R228: after a write that unmasks vector 5, its control word in BAR2 reads 0, and a word past the table stays 0. -/
theorem test_msix : (live.writeReg 0x1000 (16 * 5 + 12) 0xFFFFFFFE).bar2Read (16 * 5 + 12) = 0
    ∧ live.bar2Read (16 * 5 + 12) = 1 ∧ (live.writeReg 0x1000 0x400 7).bar2Read 0x400 = 0 := by decide +kernel

/-! ### What the well-formedness check refuses -/

theorem test_wf_slate : (Instr.slate (2 ^ 64)).wf = false := by decide
theorem test_wf_slot : (Instr.nop 0 4096 {}).wf = false ∧ (Instr.nop 0 4095 {}).wf = true := by decide
theorem test_wf_record : (Instr.reelLoad 0 0 { opcode := 256 }).wf = false ∧ (Instr.batchRun 0 0 { rsvd := 2 ^ 32 }).wf = false := by decide
theorem test_wf_handle : (Instr.reelUnloadEffect 0 1025).wf = false := by decide
theorem test_wf_context : (Instr.contextExpiry (2 ^ 20)).wf = false := by decide
theorem test_wf_picture : (Instr.encodePictureStart ⟨0, 2 ^ 64⟩).wf = false ∧ (Instr.decodePictureStart ⟨0, 2 ^ 64⟩).wf = false := by decide
theorem test_wf_address : (Instr.addrErr 0 ⟨0, 0⟩).wf = true ∧ (Instr.parityWr 0 ⟨mainSpace, 0⟩).wf = false
    ∧ (Instr.backInvalidateResponse (mainSpace / 64)).wf = false := by decide
theorem test_wf_burns : (Instr.counterBurnDone 0 (List.replicate 66 true)).wf = false := by decide
theorem test_wf_narrow : (Instr.narrowAccess true 0 []).wf = false ∧ (Instr.narrowAccess true (2 ^ 24 + 2 ^ 16) [0]).wf = false := by decide
theorem test_wf_screen : (Instr.screenTestDone { primeFailed := [224] }).wf = false := by decide
theorem test_wf_sensors : (Instr.evaluationSlate { avg := 2 ^ 16 }).wf = false ∧ (Instr.junctionSample { tj := 256 }).wf = false
    ∧ (Instr.thermalTrip (-257)).wf = false := by decide
theorem test_wf_training : (Instr.linkTraining { m0 := 3 }).wf = false := by decide
theorem test_wf_decoder : (Instr.hdmCommit 0 (2 ^ 64) 0).wf = false := by decide
theorem test_wf_line : (Instr.cxlMemAccess { decoder := 0, off := 0, write := true, data := zeros 63 }).wf = false := by decide
theorem test_wf_message : (Instr.bind 0 { msg := 256, part := 0 }).wf = false := by decide
theorem test_wf_salt : (Instr.salt { port := 0, an := 0, src := 2 ^ 16, salt := 0 }).wf = false := by decide
theorem test_wf_frame : (Instr.data { port := 0, f := { typ := 256 } }).wf = false
    ∧ (Instr.ack { port := 0, pn := 2 ^ 64, f := {} }).wf = false
    ∧ (Instr.data { port := 0, f := { payload := zeros 8193 } }).wf = false := by decide +kernel
theorem test_wf_kind : (Instr.conversationOpenRequest 0 0 0 0 0).wf = false ∧ (Instr.conversationCloseRequest 0 8 0 0).wf = false := by decide
theorem test_wf_clock : (Instr.ptpSync 0 { port := 0, domain := 256 }).wf = false ∧ (Instr.ptpAnnounce { port := 0, domain := 256 }).wf = false := by decide
theorem test_wf_take : (Instr.takeLate (2 ^ 16) 0).wf = false ∧ (Instr.takeFilled 0 (2 ^ 64)).wf = false := by decide
theorem test_wf_debug : (Instr.debugMemoryAccess false (.mainStore mainSpace) [0]).wf = false := by decide

end Sys2Proof.Tests
end

/-! Product overflow of a ledger (R62) and its report at the close (R68): what `floorShift`, `addTerm`, `addProduct` and
`close` do to the sign of a term and to POVF. -/
section
namespace Sys2Proof.Machine

/-- Truncation toward minus infinity keeps the sign (R61), so the clamp's test on the term is a test on the product. -/
theorem floorShift_neg_iff (m e : Int) : floorShift m e < 0 ↔ m < 0 := by
  have hpow (k : Nat) : (0 : Int) < (2 ^ k : Nat) := Int.natCast_pos.2 (Nat.two_pow_pos k)
  have hnonneg : 0 ≤ floorShift m e ↔ 0 ≤ m := by
    unfold floorShift
    split
    · exact Int.mul_nonneg_iff_of_pos_right (hpow _)
    · exact Int.ediv_nonneg_iff_of_pos (hpow _)
  rw [← Int.not_le, hnonneg, Int.not_le]

/-- The array's test for a product overflow is R62's: the term's magnitude against 2^127. -/
theorem termOverflows_iff (t : Int) : (two127 ≤ t ∨ t ≤ -two127) ↔ 2 ^ 127 ≤ t.natAbs := by
  simp only [two127]
  omega

theorem Led.addTerm_of_overflow (l : Led) (m e : Int) (h : 2 ^ 127 ≤ (floorShift m (e - l.anchor)).natAbs) :
    l.addTerm m e = { l with x := l.x + (if m < 0 then -(2 ^ 127 - 1) else 2 ^ 127 - 1), povf := true } := by
  have hclamp : two127 = 2 ^ 127 := rfl
  exact (if_pos ((termOverflows_iff _).2 h)).trans (by simp only [floorShift_neg_iff, hclamp])

theorem Led.addTerm_of_fits (l : Led) (m e : Int) (h : (floorShift m (e - l.anchor)).natAbs < 2 ^ 127) :
    l.addTerm m e = { l with x := l.x + floorShift m (e - l.anchor) } :=
  if_neg (mt (termOverflows_iff _).1 (Nat.not_le.2 h))

/-- A finite term never clears POVF. -/
theorem Led.addTerm_povf {l : Led} (m e : Int) (h : l.povf = true) : (l.addTerm m e).povf = true := by
  rcases Nat.lt_or_ge (floorShift m (e - l.anchor)).natAbs (2 ^ 127) with hfits | hover
  · rw [Led.addTerm_of_fits l m e hfits, h]
  · rw [Led.addTerm_of_overflow l m e hover]

/-- No product clears POVF: one with a NaN or an infinity sets another flag only (R65). -/
theorem Led.addProduct_povf {l : Led} (a b : NumVal) (h : l.povf = true) : (l.addProduct a b).povf = true := by
  match a, b with
  | .nan, _ | .inf _, .nan | .fin _ _, .nan => exact h
  | .inf _, .inf _ | .inf _, .fin _ _ | .fin _ _, .inf _ =>
    unfold Led.addProduct
    dsimp only
    repeat' split
    all_goals exact h
  | .fin m e, .fin n f => exact Led.addTerm_povf (m * n) (e + f) h

/-- POVF, once set, stays set through every later product. -/
theorem Led.foldl_addProduct_povf {l : Led} (ps : List (NumVal × NumVal)) (h : l.povf = true) :
    (ps.foldl (fun (l : Led) (p : NumVal × NumVal) => l.addProduct p.1 p.2) l).povf = true := by
  induction ps generalizing l with
  | nil => exact h
  | cons p ps ih => exact ih (Led.addProduct_povf p.1 p.2 h)

/-- R68: steps 1 to 3 of the close pass POVF on, for a special as for a finite value. -/
@[simp] theorem Led.value_prod (l : Led) (mult shift : Nat) : (l.value mult shift).2.2 = l.povf := by
  unfold Led.value
  repeat' split
  all_goals rfl

/-- R68: a close reports a product overflow exactly when POVF is set. -/
@[simp] theorem Led.close_prod (l : Led) (c : CloseCfg) : (l.close c).prod = l.povf :=
  Led.value_prod l c.mult c.shift

/-- Settles O22: the clamp by the sign of the product, POVF kept by every later product, and its report at the close. -/
theorem productOverflow : Obligations.ProductOverflow := by
  intro l m e n f t k
  refine ⟨fun hbig => ?_, fun hsmall => Led.addTerm_of_fits l (m * n) (e + f) hsmall⟩
  have hk : k = _ := Led.addTerm_of_overflow l (m * n) (e + f) hbig
  refine ⟨hk, fun ps c => ?_⟩
  have hpovf : k.povf = true := by rw [hk]
  rw [Led.close_prod]
  exact Led.foldl_addProduct_povf ps hpovf

end Sys2Proof.Machine
end

/-! Firings of a channel that cannot run at once (R192): the one that it keeps, the further one that it loses, and when a
SLATE or TIMER trigger is such a firing (R190).  First what halting an item (R393) does to the scoreboard. -/
section
namespace Sys2Proof.Machine

/-! ### Items by number -/

/-- The item found under a number has that number. -/
theorem State.item_self {s : State} {id : Nat} {i : Item} (h : s.item id = some i) : s.item i.id = some i := by
  have hid : i.id = id := by simpa using List.find?_some h
  rw [hid, h]

/-- A change that keeps the items' numbers shows in the item found under every number. -/
theorem State.item_modItem (s : State) (k id : Nat) (f : Item → Item) (hf : ∀ i, (f i).id = i.id) :
    (s.modItem k f).item id = (s.item id).map fun i => if i.id = k then f i else i := by
  have hkeeps : ((fun i : Item => decide (i.id = id)) ∘ fun i => if i.id = k then f i else i) = fun i => decide (i.id = id) := by
    funext i
    by_cases h : i.id = k <;> simp [h, hf]
  unfold State.item State.modItem
  rw [List.find?_map, hkeeps]

/-! ### Halting an item -/

/-- The item under this number has halted with this code. -/
def State.haltedWith (s : State) (id code : Nat) : Prop := ∃ j, s.item id = some j ∧ j.st = .halted ∧ j.haltCode = code

theorem State.item_stopItem (s : State) (i : Item) (code id : Nat) : (s.stopItem i code).item id
    = (s.item id).map fun j => if j.id = i.id then { j with st := .halted, haltCode := code } else j :=
  s.item_modItem i.id id (fun j => { j with st := .halted, haltCode := code }) fun _ => rfl

theorem State.stopItem_haltedWith {s : State} {i : Item} (h : s.item i.id = some i) (code : Nat) :
    (s.stopItem i code).haltedWith i.id code :=
  ⟨{ i with st := .halted, haltCode := code }, by simp [State.item_stopItem, h], rfl, rfl⟩

/-- An item that halted with a code stays so when another item, or the same again, stops with that code. -/
theorem State.haltedWith.stopItem {s : State} {id code : Nat} (h : s.haltedWith id code) (i : Item) :
    (s.stopItem i code).haltedWith id code := by
  obtain ⟨j, hj, hst, hcode⟩ := h
  refine ⟨_, by rw [State.item_stopItem, hj, Option.map_some], ?_⟩
  split
  · exact ⟨rfl, rfl⟩
  · exact ⟨hst, hcode⟩

/-- An item is the first that its own halt stops (R114). -/
theorem State.batchOf_eq_cons (s : State) (i : Item) : ∃ riders, s.batchOf i = i :: riders := by
  unfold State.batchOf
  split
  · exact ⟨_, rfl⟩
  · exact ⟨[], rfl⟩

/-- R393: an item that is halted has halted with its code, whatever its batch. -/
theorem State.haltItem_haltedWith {s : State} {i : Item} (h : s.item i.id = some i) (code : Nat) :
    (s.haltItem i code).haltedWith i.id code := by
  obtain ⟨riders, hbatch⟩ := s.batchOf_eq_cons i
  unfold State.haltItem
  rw [hbatch, List.foldl_cons]
  refine List.foldlRecOn (motive := fun t : State => t.haltedWith i.id code) riders _ ?_ fun t ht j _ => ?_
  · exact State.stopItem_haltedWith (s := s.itemRecord i code i.faultData false) h code
  · exact State.haltedWith.stopItem (s := t.itemRecord j code j.faultData false) ht j

/-- A halt that no rehearsal causes changes the scoreboard with its queued records, and nothing else. -/
theorem State.haltItem_frame (s : State) (i : Item) (code : Nat) : ∃ sch, s.haltItem i code = { s with sched := sch } := by
  unfold State.haltItem
  refine List.foldlRecOn (motive := fun t : State => ∃ sch, t = { s with sched := sch }) _ _ ⟨s.sched, rfl⟩ fun t ht j _ => ?_
  obtain ⟨sch, rfl⟩ := ht
  exact ⟨_, rfl⟩

@[simp] theorem State.haltItem_splicer (s : State) (i : Item) (code : Nat) : (s.haltItem i code).splicer = s.splicer := by
  obtain ⟨sch, h⟩ := s.haltItem_frame i code
  rw [h]
@[simp] theorem State.haltItem_reg (s : State) (i : Item) (code : Nat) : (s.haltItem i code).reg = s.reg := by
  obtain ⟨sch, h⟩ := s.haltItem_frame i code
  rw [h]
@[simp] theorem State.haltItem_has (s : State) (i : Item) (code pg b : Nat) : (s.haltItem i code).has pg b = s.has pg b := by
  simp [State.has, State.hdr]
@[simp] theorem State.haltItem_rd (s : State) (i : Item) (code pg off : Nat) : (s.haltItem i code).rd pg off = s.rd pg off := by
  simp [State.rd]

/-! ### Counting for an owner -/

@[simp] theorem State.countFor_sched (s : State) (p pg off tot n : Nat) : (s.countFor p pg off tot n).sched = s.sched := by
  unfold State.countFor
  split <;> rfl
@[simp] theorem State.countFor_splicer (s : State) (p pg off tot n : Nat) : (s.countFor p pg off tot n).splicer = s.splicer := by
  unfold State.countFor
  split <;> rfl

/-- Partition 0's work counts in the unit's page. -/
theorem State.rd_countFor_own {p : Nat} (hp : p = 0) (s : State) (pg off tot n : Nat) :
    (s.countFor p pg off tot n).rd pg off = satAdd (s.rd pg off) n := by
  rw [State.countFor, if_pos hp, State.rd_count_same]

/-- A tenant's work counts in its totals (R266). -/
theorem State.rd_countFor_tenant {p : Nat} (hp : p ≠ 0) (s : State) (pg off tot n : Nat) :
    (s.countFor p pg off tot n).rd (pgPart p) tot = satAdd (s.rd (pgPart p) tot) n := by
  rw [State.countFor, if_neg hp, State.rd_count_same]

/-- No total of a tenant is one of the two registers that events count into. -/
theorem countsEvents_pgPart (p : Nat) {off : Nat} (hoff : off < 4096) (h84 : off ≠ 0x84) : countsEvents (rk (pgPart p) off) = false := by
  have hdailies : rk (pgPart p) off ≠ rk pgDailies 0x50 := by unfold rk pgPart pgDailies; omega
  have hd2d : rk (pgPart p) off ≠ rk pgD2d 0x84 := by unfold rk pgPart pgD2d; omega
  simp [countsEvents, hdailies, hd2d]

/-! ### Firings (R192) -/

/-- The lost firing with its count and its event, before its item fails. -/
def State.trigDropped (s : State) (c : Nat) : State := (s.countFor (s.chan c).part pgSplicer 0x60 0x19C 1).raise (pgChan c) 10

@[simp] theorem State.trigDropped_splicer (s : State) (c : Nat) : (s.trigDropped c).splicer = s.splicer := by simp [State.trigDropped]
@[simp] theorem State.trigDropped_sched (s : State) (c : Nat) : (s.trigDropped c).sched = s.sched := by simp [State.trigDropped]
@[simp] theorem State.trigDropped_item (s : State) (c id : Nat) : (s.trigDropped c).item id = s.item id := by simp [State.item]
@[simp] theorem State.trigDropped_has (s : State) (c : Nat) : (s.trigDropped c).has (pgChan c) 10 = true :=
  State.has_raise _ _ (by decide)

theorem State.trigDropped_rd_own (s : State) (c : Nat) (hp : (s.chan c).part = 0) :
    (s.trigDropped c).rd pgSplicer 0x60 = satAdd (s.rd pgSplicer 0x60) 1 :=
  (State.raise_rd _ _ _ (by decide)).trans (State.rd_countFor_own hp s _ _ _ _)

theorem State.trigDropped_rd_tenant (s : State) (c : Nat) (hp : (s.chan c).part ≠ 0) :
    (s.trigDropped c).rd (pgPart (s.chan c).part) 0x19C = satAdd (s.rd (pgPart (s.chan c).part) 0x19C) 1 :=
  (State.raise_rd _ _ _ (countsEvents_pgPart _ (by decide) (by decide))).trans (State.rd_countFor_tenant hp s _ _ _ _)

/-- The lost firing of an item fails it, unless it has halted already. -/
theorem State.trigLost_eq {s : State} {c : Nat} {i : Item} (h : s.item (s.chan c).item = some i) :
    s.trigLost c = if i.st = .halted then s.trigDropped c else (s.trigDropped c).haltItem i codeTrig := by
  have hitem : (s.trigDropped c).item (s.chan c).item = some i := by rw [State.trigDropped_item, h]
  unfold State.trigLost
  dsimp only
  rw [← State.trigDropped, hitem]

/-- A channel that cannot fire at once: it waits for the slot, has it, or stands halted. -/
def Channel.engaged (k : Channel) : Prop := k.eligible = true ∨ k.st = 2 ∨ k.st = 3

theorem State.fireChan_engaged {s : State} {c : Nat} (h : (s.chan c).engaged) :
    s.fireChan c = if (s.chan c).pendingFire then s.trigLost c else s.modChan c fun k => { k with pendingFire := true } := by
  have hbusy : ((s.chan c).eligible || (s.chan c).st = 2 || (s.chan c).st = 3) = true := by simpa [Channel.engaged, or_assoc] using h
  unfold State.fireChan
  dsimp only
  rw [if_pos hbusy]

theorem State.fireChan_kept {s : State} {c : Nat} (h : (s.chan c).engaged) (hp : (s.chan c).pendingFire = false) :
    s.fireChan c = s.modChan c fun k => { k with pendingFire := true } := by
  rw [State.fireChan_engaged h, hp, if_neg Bool.false_ne_true]

theorem State.fireChan_lost {s : State} {c : Nat} {i : Item} (hi : s.item (s.chan c).item = some i) (h : (s.chan c).engaged)
    (hp : (s.chan c).pendingFire = true) :
    s.fireChan c = if i.st = .halted then s.trigDropped c else (s.trigDropped c).haltItem i codeTrig := by
  rw [State.fireChan_engaged h, if_pos hp, State.trigLost_eq hi]

/-! ### SLATE and TIMER triggers (R190) -/

@[simp] theorem State.begin_chan (s : State) (c : Nat) : s.begin.chan c = s.chan c := rfl
@[simp] theorem State.begin_item (s : State) (id : Nat) : s.begin.item id = s.item id := rfl
@[simp] theorem State.begin_splEntry (s : State) (k : Nat) : s.begin.splEntry k = s.splEntry k := rfl

/-- A SLATE or TIMER trigger of channel c is a firing: its list has firings left, for an item that runs or has halted. -/
def State.channelDue (s : State) (c : Nat) : Prop :=
  (s.chan c).st ≠ 0 ∧ (s.chan c).firesLeft ≠ 0 ∧ (s.splEntry (s.chan c).first).trig ≠ 2
    ∧ ∃ i, s.item (s.chan c).item = some i ∧ (i.st = .running ∨ i.st = .halted)

theorem exec_splicerFiring (c : Fin 32) (s : State) : exec (.splicerFiring c) s = execSplicerFiring c s := rfl

theorem exec_splicerFiring_of_channelDue {c : Fin 32} {s : State} (h : s.channelDue c.val) :
    exec (.splicerFiring c) s
      = .next ((s.begin.modChan c.val fun k => { k with firesLeft := k.firesLeft - 1 }).fireChan c.val) := by
  rw [exec_splicerFiring]
  obtain ⟨hst, hleft, htrig, i, hi, hrun | hhalt⟩ := h
  · simp [execSplicerFiring, hst, hleft, htrig, hi, hrun]
  · simp [execSplicerFiring, hst, hleft, htrig, hi, hhalt]

theorem exec_splicerFiring_of_not_channelDue {c : Fin 32} {s : State} (h : ¬ s.channelDue c.val) :
    exec (.splicerFiring c) s = .next s.begin := by
  rw [exec_splicerFiring]
  cases hi : s.item (s.chan c.val).item with
  | none => simp [execSplicerFiring, hi]
  | some i =>
    by_cases hst : (s.chan c.val).st = 0
    · simp [execSplicerFiring, hst]
    by_cases hleft : (s.chan c.val).firesLeft = 0
    · simp [execSplicerFiring, hleft]
    by_cases htrig : (s.splEntry (s.chan c.val).first).trig = 2
    · simp [execSplicerFiring, htrig]
    have hlive : i.st ≠ .running ∧ i.st ≠ .halted := not_or.1 fun hlive => h ⟨hst, hleft, htrig, i, hi, hlive⟩
    simp [execSplicerFiring, hi, hlive.1, hlive.2]

/-- Settles O24: an engaged channel keeps its firing or loses it to `trigDropped`, and the trigger's guard is `channelDue`. -/
theorem pendingFirings : Obligations.PendingFirings := by
  refine ⟨fun c i s hi hengaged => ⟨fun hp => ?_, fun hp => ?_⟩,
    fun c s => ⟨exec_splicerFiring_of_channelDue, exec_splicerFiring_of_not_channelDue⟩⟩
  · rw [State.fireChan_kept hengaged hp, State.chan_modChan_same]
    exact ⟨rfl, rfl, rfl, rfl, rfl, rfl, rfl⟩
  · have hself : (s.trigDropped c).item i.id = some i := by rw [State.trigDropped_item, State.item_self hi]
    rw [State.fireChan_lost hi hengaged hp]
    by_cases hst : i.st = .halted
    · rw [if_pos hst]
      exact ⟨s.trigDropped_has c, s.trigDropped_splicer c, fun h => absurd hst h, fun _ => s.trigDropped_sched c,
        s.trigDropped_rd_own c, s.trigDropped_rd_tenant c⟩
    · rw [if_neg hst, State.haltItem_has, State.haltItem_splicer, State.haltItem_rd, State.haltItem_rd]
      exact ⟨s.trigDropped_has c, s.trigDropped_splicer c, fun _ => State.haltItem_haltedWith hself codeTrig,
        fun h => absurd h hst, s.trigDropped_rd_own c, s.trigDropped_rd_tenant c⟩

end Sys2Proof.Machine
end

/-! What clears and sets SCRUB_OK (R264): a write of a range, the resets, a burn of the tenancy counter and the end of a scrub.
First what the operations that follow the change leave alone. -/
section
namespace Sys2Proof.Machine

/-! ### A range's write (R263, R264) -/

theorem pageKind_pgPart (p : Fin 16) : pageKind (pgPart p.val) = .partition := by decide +revert

@[simp] theorem State.begin_part (s : State) (p : Nat) : s.begin.part p = s.part p := rfl
@[simp] theorem State.begin_writable (s : State) (pg off : Nat) (v : Word) : s.begin.writable pg off v = s.writable pg off v := rfl
theorem State.rangesOk_wr_begin (s : State) (p pg off : Nat) (v : Word) :
    (s.begin.wr pg off v).rangesOk p = (s.wr pg off v).rangesOk p := rfl

/-- An HDM decoder that loses its commitment, now or at the slate, is no part of a register or a partition. -/
theorem State.placeAct_uncommit_reg (s : State) (p : Nat) : (s.placeAct (.uncommit p)).reg = s.reg := by
  unfold State.placeAct
  split <;> rfl
theorem State.placeAct_uncommit_parts (s : State) (p : Nat) : (s.placeAct (.uncommit p)).parts = s.parts := by
  unfold State.placeAct
  split <;> rfl

/-- MS_RANGE, PARK_RANGE, CTX_FIRST or CTX_COUNT of p holds the new value, and p's SCRUB_OK is 0. -/
def State.rangeStored (s : State) (p off : Nat) (v : Word) : State :=
  (s.wr (pgPart p) off v).modPart p fun q => { q with scrubOk := false }

@[simp] theorem State.rangeStored_rd (s : State) (p off : Nat) (v : Word) : (s.rangeStored p off v).rd (pgPart p) off = v :=
  State.rd_wr_same s _ _ _
@[simp] theorem State.rangeStored_scrubOk (s : State) (p off : Nat) (v : Word) :
    ((s.rangeStored p off v).part p).scrubOk = false := by
  rw [State.rangeStored, State.part_modPart_same]

/-- A range that the page takes is stored, and but for PARK_RANGE a new value ends the commitment of p's decoder. -/
theorem State.storePart_range {s : State} {p off : Nat} {v : Word} (hoff : off ∈ [0x48, 0x4C, 0x54, 0x58])
    (hbusy : s.partBusy p = false) (hok : (s.wr (pgPart p) off v).rangesOk p = true) :
    s.storePart p off v = s.rangeStored p off v
      ∨ s.storePart p off v = (s.rangeStored p off v).placeAct (.uncommit p) := by
  simp only [List.mem_cons, List.not_mem_nil, or_false] at hoff
  have hcommand : off ≠ 0x40 := by omega
  have hrange : ((off = 0x48 ∨ off = 0x54) ∨ off = 0x58) ∨ off = 0x4C := by omega
  have hring : ringRegOk off v = true := by
    rcases hoff with rfl | rfl | rfl | rfl <;> rfl
  simp only [State.storePart, if_neg hcommand, State.when, hbusy, hok, hring, Bool.not_false, Bool.and_true, if_true,
    Bool.or_eq_true, decide_eq_true_eq, if_pos hrange]
  split
  · exact Or.inr rfl
  · exact Or.inl rfl

theorem State.storePart_range_rd {s : State} {p off : Nat} {v : Word} (hoff : off ∈ [0x48, 0x4C, 0x54, 0x58])
    (hbusy : s.partBusy p = false) (hok : (s.wr (pgPart p) off v).rangesOk p = true) :
    (s.storePart p off v).rd (pgPart p) off = v := by
  rcases State.storePart_range hoff hbusy hok with h | h
  · rw [h, State.rangeStored_rd]
  · rw [h, State.rd, State.placeAct_uncommit_reg]
    exact s.rangeStored_rd p off v

theorem State.storePart_range_scrubOk {s : State} {p off : Nat} {v : Word} (hoff : off ∈ [0x48, 0x4C, 0x54, 0x58])
    (hbusy : s.partBusy p = false) (hok : (s.wr (pgPart p) off v).rangesOk p = true) :
    ((s.storePart p off v).part p).scrubOk = false := by
  rcases State.storePart_range hoff hbusy hok with h | h
  · rw [h, State.rangeStored_scrubOk]
  · rw [h, State.part, State.placeAct_uncommit_parts]
    exact s.rangeStored_scrubOk p off v

theorem exec_registerWrite (pg : Fin 4112) (w : Fin 1024) (v : Word) (s : State) :
    exec (.registerWrite pg w v) s = .next (s.begin.writeReg pg.val (4 * w.val) v) := rfl

/-- A write that PARTITION page p takes whole, of a block-specific register. -/
theorem State.writeReg_partition {s : State} {p : Fin 16} {off : Nat} {v : Word} (hoff : 0x40 ≤ off)
    (hw : s.writable (pgPart p.val) off v = true) : s.writeReg (pgPart p.val) off v = s.storePart p.val off v := by
  have hbar0 : ¬ bar2Page ≤ pgPart p.val := by unfold bar2Page pgPart; omega
  have hpart : pgPart p.val - 0x200 = p.val := by unfold pgPart; omega
  rw [State.writeReg, if_neg hbar0, if_neg (Nat.not_lt.2 hoff), State.gated_writable _ hw, State.regStore, pageKind_pgPart]
  dsimp only
  rw [hpart]

/-! ### Resets (R384, R385) -/

/-- Of the partitions a power-on reset keeps nothing; each takes T from the fuses. -/
theorem State.cold_parts (s : State) (cause : Nat) (straps : Option (Fin 256)) :
    (s.cold cause straps).parts
      = (List.range 16).foldl (fun m p => mmod (fun _ => ({} : Part)) m p fun q => { q with t := s.cutBurn.sec.counter }) [] := by
  rw [State.cold]

theorem State.cold_scrubOk (s : State) (cause : Nat) (straps : Option (Fin 256)) (p : Nat) :
    ((s.cold cause straps).part p).scrubOk = false := by
  rw [State.part, State.cold_parts]
  refine List.foldlRecOn (motive := fun m : SMap Part => (mget (fun _ => {}) m p).scrubOk = false) _ _ rfl fun m hm i _ => ?_
  by_cases hp : p = i
  · rw [hp] at hm ⊢
    rw [mget_mmod_same]
    exact hm
  · rw [mget_mmod_ne _ _ _ hp]
    exact hm

theorem exec_powerOn (straps : Option (Fin 256)) (s : State) : exec (.powerOn straps) s = .next (s.cold 1 straps) := rfl

theorem exec_holdup_of_holdup {s : State} (h : s.power.holdup = true) : exec .holdup s = .next (s.cold 1 s.boot.straps) := by
  show execHoldup s = _
  rw [execHoldup, if_pos h]

/-- MRST_N does with the partitions what a power-on does. -/
theorem exec_mrstN_parts (s : State) : ∃ t, exec .mrstN s = .next t ∧ t.parts = (s.cold 2 s.boot.straps).parts := by
  refine ⟨_, show execMrstN s = _ from rfl, ?_⟩
  dsimp only

/-! ### The tenancy counter and the end of a scrub (R181, R348) -/

@[simp] theorem State.startShares_parts (s : State) (p : Nat) : (s.startShares p).parts = s.parts := by
  unfold State.startShares
  refine List.foldlRecOn (motive := fun t : State => t.parts = s.parts) _ _ rfl fun t ht m _ => ?_
  exact ite_holds (fun u : State => u.parts = s.parts) ht ht

@[simp] theorem State.startShares_sec (s : State) (p : Nat) : (s.startShares p).sec = s.sec := by
  unfold State.startShares
  refine List.foldlRecOn (motive := fun t : State => t.sec = s.sec) _ _ rfl fun t ht m _ => ?_
  exact ite_holds (fun u : State => u.sec = s.sec) ht ht

/-- The state in which p's shares start after its burn took, with n spares left. -/
def State.counterBurnt (s : State) (p n : Nat) : State :=
  ({ s with sec := { s.sec with counter := s.sec.counter + 1, spares := n } } : State).modPart p
    fun q => { q with burning := false, t := s.sec.counter + 1, scrubOk := false, exposed := false }

@[simp] theorem State.counterBurnt_counter (s : State) (p n : Nat) : (s.counterBurnt p n).sec.counter = s.sec.counter + 1 := rfl
@[simp] theorem State.counterBurnt_scrubOk (s : State) (p n : Nat) : ((s.counterBurnt p n).part p).scrubOk = false := by
  rw [State.counterBurnt, State.part_modPart_same]

theorem exec_counterBurnDone_taken {p : Fin 16} {burns : BurnTrace} {n : Nat} {s : State}
    (hburning : (s.part p.val).burning = true) (hfirst : ∀ j, j < p.val → (s.part j).burning = false)
    (hresult : burnResult s.sec.spares burns = some (true, n)) :
    exec (.counterBurnDone p burns) s = .next ((s.begin.counterBurnt p.val n).startShares p.val) := by
  have hmine : (!(s.begin.part p.val).burning || !(List.range p.val).all fun j => !(s.begin.part j).burning) = false := by
    simpa [hburning] using hfirst
  show execCounterBurnDone p burns s = _
  unfold execCounterBurnDone
  dsimp only
  rw [hmine, if_neg Bool.false_ne_true, State.begin_sec, hresult]
  rfl

theorem State.foldl_raise_parts {α : Type} (pg : α → Nat) (b : Nat) (l : List α) (s : State) :
    (l.foldl (fun s x => s.raise (pg x) b) s).parts = s.parts := by
  refine List.foldlRecOn (motive := fun t : State => t.parts = s.parts) _ _ rfl fun t ht x _ => ?_
  rw [State.raise_parts, ht]

/-- The events of a completed scrub follow its SCRUB_OK, and change no partition. -/
theorem State.endScrub_complete_scrubOk (s : State) (p : Nat) : ((s.endScrub p false).part p).scrubOk = true := by
  rw [State.endScrub, if_neg Bool.false_ne_true, State.part, State.foldl_raise_parts, State.raise_parts, State.raise_parts]
  exact congrArg Part.scrubOk (State.part_modPart_same _ p _)

theorem exec_scrubDone_complete {p : Fin 16} {s : State} (hended : s.scrubEnded p.val = some false)
    (hslate : s.scrubSlate p.val = true) : exec (.scrubDone p) s = .next (s.begin.endScrub p.val false) := by
  have hended' : s.begin.scrubEnded p.val = some false := hended
  have hslate' : s.begin.scrubSlate p.val = true := hslate
  show execScrubDone p s = _
  unfold execScrubDone
  dsimp only
  rw [hended']
  dsimp only
  rw [if_pos hslate']

/-- Settles O30: what is stored, reset, burnt or completed says of SCRUB_OK, case by case. -/
theorem scrubOkCleared : Obligations.ScrubOkCleared := by
  refine ⟨fun p pg w v s hpg hoff hw hbusy hok => ?_, fun straps p s => ⟨?_, ?_, fun hholdup => ?_⟩, fun p s =>
    ⟨fun burns n hburning hfirst hresult => ?_, fun hended hslate => ?_⟩⟩
  · rw [hpg] at hw hok
    have hblock : 0x40 ≤ 4 * w.val := by
      simp only [List.mem_cons, List.not_mem_nil, or_false] at hoff
      omega
    rw [exec_registerWrite, hpg, State.writeReg_partition hblock (by rwa [State.begin_writable])]
    have hok' : (s.begin.wr (pgPart p.val) (4 * w.val) v).rangesOk p.val = true := by rwa [State.rangesOk_wr_begin]
    exact ⟨_, rfl, State.storePart_range_rd hoff hbusy hok', State.storePart_range_scrubOk hoff hbusy hok'⟩
  · exact ⟨_, exec_powerOn straps s, s.cold_scrubOk 1 straps p⟩
  · obtain ⟨t, ht, hparts⟩ := exec_mrstN_parts s
    refine ⟨t, ht, ?_⟩
    rw [State.part, hparts]
    exact s.cold_scrubOk 2 s.boot.straps p
  · exact ⟨_, exec_holdup_of_holdup hholdup, s.cold_scrubOk 1 s.boot.straps p⟩
  · refine ⟨_, exec_counterBurnDone_taken hburning hfirst hresult, ?_, ?_⟩
    · rw [State.startShares_sec, State.counterBurnt_counter, State.begin_sec]
    · rw [State.part, State.startShares_parts]
      exact s.begin.counterBurnt_scrubOk p.val n
  · exact ⟨_, exec_scrubDone_complete hended hslate, s.begin.endScrub_complete_scrubOk p.val⟩

end Sys2Proof.Machine
end

/-! Pages that the index marks as unimplemented (R250): a register access of one, and an access of any place and length that
stays within one, reads zeros and changes nothing. -/
section
namespace Sys2Proof.Machine

/-! ### One word of such a page -/

theorem leBytes_zero (n : Nat) : leBytes n 0 = zeros n := by
  induction n with
  | zero => rfl
  | succ n ih =>
    rw [leBytes, Nat.zero_div, ih]
    rfl

theorem State.gated_of_unimplemented {pg : Nat} (h : implemented pg = false) (s : State) (off : Nat) (v : Word)
    (f : State → Word → State) : s.gated pg off v f = s := by
  simp [State.gated, State.gate, h]

theorem State.hdrWrite_of_unimplemented {pg : Nat} (h : implemented pg = false) (s : State) (off : Nat) (v : Word) :
    s.hdrWrite pg off v = s := by
  simp [State.hdrWrite, h]

theorem State.writeReg_of_unimplemented {pg : Nat} (hpg : pg < bar2Page) (h : implemented pg = false) (s : State) (off : Nat)
    (v : Word) : s.writeReg pg off v = s := by
  rw [State.writeReg, if_neg (Nat.not_le.2 hpg), State.hdrWrite_of_unimplemented h, State.gated_of_unimplemented h, ite_self]

theorem State.readReg_of_unimplemented {pg : Nat} (hpg : pg < bar2Page) (h : implemented pg = false) (s : State) (off : Nat) :
    s.readReg pg off = (0, s) := by
  simp [State.readReg, Nat.not_le.2 hpg, h]

/-- Word k of an access at address a lies in a page of BAR0 that is not implemented. -/
def wordUnimplemented (a k : Nat) : Prop :=
  (a / 4 * 4 + 4 * k) / 0x1000 < bar2Page ∧ implemented ((a / 4 * 4 + 4 * k) / 0x1000) = false

/-- A write of it in full finds no register, one in part raises nothing. -/
theorem State.writeWord_of_unimplemented {a k : Nat} (h : wordUnimplemented a k) (s : State) (d : Bytes) :
    s.writeWord a d k = s := by
  obtain ⟨hpg, himpl⟩ := h
  simp [State.writeWord, State.writeReg_of_unimplemented hpg himpl, himpl]

theorem State.readWord_of_unimplemented {a k : Nat} (h : wordUnimplemented a k) (s : State) : s.readWord a k = (zeros 4, s) := by
  obtain ⟨hpg, himpl⟩ := h
  unfold State.readWord
  dsimp only
  rw [State.readReg_of_unimplemented hpg himpl, ← leBytes_zero 4]
  split <;> rfl

/-! ### Accesses within such a page (R12) -/

/-- Each word that an access within one page touches lies in that page. -/
theorem page_of_word_within {pg a n k : Nat} (hlo : pg * 0x1000 ≤ a) (hhi : a + n ≤ (pg + 1) * 0x1000) (hk : k < wordCount a n) :
    (a / 4 * 4 + 4 * k) / 0x1000 = pg := by
  unfold wordCount at hk
  split at hk
  · omega
  · omega

/-- The words that an access touches hold all its bytes. -/
theorem wordCount_covers (a n : Nat) : a % 4 + n ≤ 4 * wordCount a n ∨ n = 0 := by
  unfold wordCount
  split
  · exact Or.inr ‹_›
  · omega

theorem drop_take_zeros {m i n : Nat} (h : i + n ≤ m ∨ n = 0) : ((zeros m).drop i).take n = zeros n := by
  unfold zeros
  rw [List.drop_replicate, List.take_replicate]
  congr 1
  omega

theorem State.writeWords_of_unimplemented {a n : Nat} (h : ∀ k, k < n → wordUnimplemented a k) (s : State) (d : Bytes) :
    (List.range n).foldl (fun s k => s.writeWord a d k) s = s := by
  refine List.foldlRecOn (motive := fun t => t = s) _ _ rfl fun t ht k hk => ?_
  rw [State.writeWord_of_unimplemented (h k (List.mem_range.1 hk)), ht]

theorem State.readWords_of_unimplemented {a k n : Nat} (h : ∀ j, j < k + n → wordUnimplemented a j) (s : State) :
    s.readWords a k n = (zeros (4 * n), s) := by
  induction n generalizing k with
  | zero => rfl
  | succ n ih =>
    have hrest := ih (k := k + 1) fun j hj => h j (by omega)
    rw [State.readWords, State.readWord_of_unimplemented (h k (by omega))]
    dsimp only
    rw [hrest, zeros, zeros, zeros, List.replicate_append_replicate, Nat.mul_succ, Nat.add_comm 4]

/-! ### The commands -/

@[simp] theorem State.begin_regPath (s : State) : s.begin.regPath = s.regPath := rfl

theorem exec_rcRead_of_regPath {s : State} (h : s.regPath = true) (pg : Fin 4112) (w : Fin 1024) :
    exec (.rcRead pg w) s = .next ((s.begin.readReg pg.val (4 * w.val)).2.emit
      (.readData (leBytes 4 (s.begin.readReg pg.val (4 * w.val)).1.toNat))) := by
  show execRcRead pg w s = _
  simp [execRcRead, h]

theorem exec_narrowAccess_write_of_regPath {s : State} (h : s.regPath = true) (a : Nat) (d : Bytes) :
    exec (.narrowAccess true a d) s
      = .next ((List.range (wordCount a d.length)).foldl (fun s k => s.writeWord a d k) s.begin) := by
  show execNarrowAccess true a d s = _
  simp [execNarrowAccess, h]

theorem exec_narrowAccess_read_of_regPath {s : State} (h : s.regPath = true) (a : Nat) (d : Bytes) :
    exec (.narrowAccess false a d) s
      = .next ((s.begin.readWords a 0 (wordCount a d.length)).2.emit
          (.readData (((s.begin.readWords a 0 (wordCount a d.length)).1.drop (a % 4)).take d.length))) := by
  show execNarrowAccess false a d s = _
  simp [execNarrowAccess, h]

/-- Settles O34: no word of the page is written or read as anything but zero, and an access touches words of its page only. -/
theorem unimplementedPages : Obligations.UnimplementedPages := by
  refine fun pg s hpg himpl hpath => ⟨fun w v => ⟨?_, ?_⟩, fun a d hlo hhi => ?_⟩
  · rw [exec_registerWrite, State.writeReg_of_unimplemented hpg himpl]
  · rw [exec_rcRead_of_regPath hpath, State.readReg_of_unimplemented hpg himpl, ← leBytes_zero 4]
    rfl
  · have hwords : ∀ k, k < wordCount a d.length → wordUnimplemented a k := by
      intro k hk
      rw [wordUnimplemented, page_of_word_within hlo hhi hk]
      exact ⟨hpg, himpl⟩
    have hread := State.readWords_of_unimplemented (k := 0) (n := wordCount a d.length)
      (fun j hj => hwords j (by omega)) s.begin
    constructor
    · rw [exec_narrowAccess_write_of_regPath hpath, State.writeWords_of_unimplemented hwords]
    · rw [exec_narrowAccess_read_of_regPath hpath, hread]
      dsimp only
      rw [drop_take_zeros (wordCount_covers a d.length)]

end Sys2Proof.Machine
end

/-! Continuity messages that come after their judgement slate (R328): what sending, the divergence log and the CTX section
leave alone, and what an accepted late message does. -/
section
namespace Sys2Proof.Machine

/-! ### Registers of the TWIN page -/

theorem rk_twin_ne_above {pg off off' : Nat} (hpg : pgTwin < pg) (hoff : off < 0x1000) : rk pgTwin off ≠ rk pg off' := by
  unfold rk
  omega

theorem rk_ne_of_off {pg off off' : Nat} (h : off ≠ off') : rk pg off ≠ rk pg off' := by
  unfold rk
  omega

theorem pgTwin_lt_pgPort (q : Nat) : pgTwin < pgPort q := by
  unfold pgPort pgTwin
  split <;> omega

/-! ### Sending a message (R275, R287) -/

/-- `t` is `u` after frames have gone out: the links, the outputs and registers other than the TWIN page's may differ. -/
structure AfterSend (u t : State) : Prop where
  rest : t = { u with reg := t.reg, links := t.links, out := t.out }
  hdr : t.reg.hdr = u.reg.hdr
  twinRegs : ∀ off, off < 0x1000 → t.rd pgTwin off = u.rd pgTwin off

namespace AfterSend

theorem refl (s : State) : AfterSend s s := ⟨rfl, rfl, fun _ _ => rfl⟩

theorem trans {a b c : State} (h : AfterSend a b) (k : AfterSend b c) : AfterSend a c :=
  ⟨by rw [k.rest, h.rest], k.hdr.trans h.hdr, fun off hoff => (k.twinRegs off hoff).trans (h.twinRegs off hoff)⟩

theorem units {u t : State} (h : AfterSend u t) : t.units = u.units := by rw [h.rest]
theorem stores {u t : State} (h : AfterSend u t) : t.stores = u.stores := by rw [h.rest]
theorem twin {u t : State} (h : AfterSend u t) : t.twin = u.twin := by rw [h.rest]
theorem has {u t : State} (h : AfterSend u t) (pg b : Nat) : t.has pg b = u.has pg b :=
  congrArg (fun m => bit (mget hdrReset m pg).evt b) h.hdr

theorem links (s : State) (l : Links) : AfterSend s { s with links := l } := ⟨rfl, rfl, fun _ _ => rfl⟩

theorem emit (s : State) (o : Output) : AfterSend s (s.emit o) := ⟨rfl, rfl, fun _ _ => rfl⟩

theorem countPort (s : State) (q off n : Nat) : AfterSend s (s.count (pgPort q) off n) :=
  ⟨rfl, rfl, fun _ hoff => State.rd_count_ne _ _ _ _ (rk_twin_ne_above (pgTwin_lt_pgPort q) hoff)⟩

theorem announce (s : State) (q : Nat) : AfterSend s (s.announce q) := by
  unfold State.announce
  dsimp only
  split
  · split
    · exact (links s _).trans (emit _ _)
    · exact refl s
  · exact refl s

theorem tx (s : State) (q : Nat) (f : Frame) : AfterSend s (s.tx q f) := by
  have hannounced : AfterSend s (if (s.port q).announced then s else s.announce q) := by
    split
    · exact refl s
    · exact announce s q
  unfold State.tx
  split
  · exact refl s
  · exact ((hannounced.trans (links _ _)).trans (countPort _ q _ _)).trans (emit _ _)

theorem pumpLoop (s : State) (id fuel : Nat) : AfterSend s (s.pumpLoop id fuel) := by
  induction fuel generalizing s with
  | zero => exact refl s
  | succ fuel ih =>
    rw [State.pumpLoop]
    split
    · exact refl s
    · split
      · exact refl s
      · split
        · exact refl s
        · exact ((tx s _ _).trans (links _ _)).trans (ih _)

theorem tryClose (s : State) (id : Nat) : AfterSend s (s.tryClose id) := by
  unfold State.tryClose
  split
  · split
    · exact (links s _).trans (tx _ _ _)
    · exact refl s
  · exact refl s

theorem sendOn (s : State) (id : Nat) (m : OutMsg) : AfterSend s (s.sendOn id m) := by
  unfold State.sendOn
  split
  · split
    · exact refl s
    · exact ((links s _).trans (pumpLoop _ id 64)).trans (tryClose _ id)
  · exact refl s

theorem sendRushes (s : State) (d : Bytes) : AfterSend s (s.sendRushes d) := by
  unfold State.sendRushes
  split
  · exact (links s _).trans (sendOn _ _ _)
  · exact refl s

end AfterSend

/-! ### The divergence log (R331) -/

/-- The divergence log latched from tick t and the other side's figures, unless it holds an earlier divergence. -/
def State.latchLog (s : State) (t : TickRun) (o : Other) : State :=
  let own8 := t.digest.take 8
  if s.twin.logHeld then s
  else
    let s := { s with twin := { s.twin with logHeld := true, divTick := t.tick } }
    let s := (s.wr pgTwin 0x98 (word (lowBits 8 t.tj + o.tj * 256))).wr pgTwin 0x9C (word (t.lvl % 16 + o.level % 16 * 16))
    let s := (s.wr pgTwin 0xA0 (word t.load)).wr pgTwin 0xA4 (word o.load)
    let s := (s.wr pgTwin 0xA8 (word (leAt own8 0 4))).wr pgTwin 0xAC (word (leAt own8 4 4))
    (s.wr pgTwin 0xB0 (word o.lo)).wr pgTwin 0xB4 (word o.hi)

/-- A divergence latches the log, counts, raises DIVERGENCE and writes a record. -/
theorem State.logDivergence_eq (s : State) (t : TickRun) (o : Other) :
    ∃ d, s.logDivergence t o = (((s.latchLog t o).count pgTwin 0x8C 1).fault pgTwin 16 t.tick 2).note d := ⟨_, rfl⟩

@[simp] theorem State.latchLog_units (s : State) (t : TickRun) (o : Other) : (s.latchLog t o).units = s.units := by
  unfold State.latchLog
  dsimp only
  split
  · rfl
  · simp only [State.wr_units]

@[simp] theorem State.latchLog_stores (s : State) (t : TickRun) (o : Other) : (s.latchLog t o).stores = s.stores := by
  unfold State.latchLog
  dsimp only
  split
  · rfl
  · simp only [State.wr_stores]

theorem State.latchLog_twin (s : State) (t : TickRun) (o : Other) :
    ∃ held n, (s.latchLog t o).twin = { s.twin with logHeld := held, divTick := n } := by
  unfold State.latchLog
  dsimp only
  split
  · exact ⟨_, _, rfl⟩
  · exact ⟨_, _, rfl⟩

/-- The log's own registers begin at 0x98. -/
theorem State.latchLog_rd (s : State) (t : TickRun) (o : Other) {off : Nat} (h : off < 0x98) :
    (s.latchLog t o).rd pgTwin off = s.rd pgTwin off := by
  have hwr (u : State) (reg : Nat) (v : Word) (hreg : 0x98 ≤ reg) : (u.wr pgTwin reg v).rd pgTwin off = u.rd pgTwin off :=
    State.rd_wr_ne _ _ _ _ (rk_ne_of_off (by omega))
  unfold State.latchLog
  dsimp only
  split
  · rfl
  · simp only [hwr, Nat.reduceLeDiff]
    rfl

theorem countsEvents_twin {off : Nat} (h : off < 0x1000) : countsEvents (rk pgTwin off) = false := by
  simp [countsEvents, rk_twin_ne_above (pg := pgDailies) (by decide) h, rk_twin_ne_above (pg := pgD2d) (by decide) h]

theorem State.logDivergence_units (s : State) (t : TickRun) (o : Other) : (s.logDivergence t o).units = s.units := by
  obtain ⟨d, h⟩ := s.logDivergence_eq t o
  simp [h]

theorem State.logDivergence_stores (s : State) (t : TickRun) (o : Other) : (s.logDivergence t o).stores = s.stores := by
  obtain ⟨d, h⟩ := s.logDivergence_eq t o
  simp [h]

theorem State.logDivergence_twin (s : State) (t : TickRun) (o : Other) :
    ∃ held n, (s.logDivergence t o).twin = { s.twin with logHeld := held, divTick := n } := by
  obtain ⟨d, h⟩ := s.logDivergence_eq t o
  simpa [h] using s.latchLog_twin t o

theorem State.logDivergence_has (s : State) (t : TickRun) (o : Other) : (s.logDivergence t o).has pgTwin 16 = true := by
  obtain ⟨d, h⟩ := s.logDivergence_eq t o
  rw [h]
  exact State.note_bit _ _ (by decide) (State.fault_bit _ _ _ _ _ (by decide))

theorem State.logDivergence_rd (s : State) (t : TickRun) (o : Other) {off : Nat} (hoff : off < 0x1000) :
    (s.logDivergence t o).rd pgTwin off = ((s.latchLog t o).count pgTwin 0x8C 1).rd pgTwin off := by
  obtain ⟨d, h⟩ := s.logDivergence_eq t o
  rw [h, State.note_rd _ _ (countsEvents_twin hoff), State.fault_rd _ _ _ _ _ _ (countsEvents_twin hoff)]

/-! ### A DIVERGED verdict at the double (R329, R331) -/

/-- From `s` to `t` nothing of the units, the stores, the messages held and the twin table has changed, and no register of the
TWIN page below DIV_CNT. -/
structure KeepsTwinData (s t : State) : Prop where
  units : t.units = s.units
  stores : t.stores = s.stores
  msgs : t.twin.msgs = s.twin.msgs
  table : t.twin.table = s.twin.table
  below : ∀ off, off < 0x8C → t.rd pgTwin off = s.rd pgTwin off

theorem KeepsTwinData.refl (s : State) : KeepsTwinData s s := ⟨rfl, rfl, rfl, rfl, fun _ _ => rfl⟩

/-- `t` is `s` after a DIVERGED verdict. -/
structure AfterDivergence (s t : State) : Prop extends KeepsTwinData s t where
  claimBlock : t.twin.claimBlock = true
  step : s.twin.step ≠ .off → t.twin.step = .diverged
  event : t.has pgTwin 16 = true
  counted : t.rd pgTwin 0x8C = satAdd (s.rd pgTwin 0x8C) 1

/-- The twin controller with a DIVERGED verdict, before the log is latched. -/
def Twin.diverged (w : Twin) : Twin :=
  { w with claimBlock := true, unjudgedRun := 0, step := if w.step = .off then .off else .diverged }

/-- What a message tells of its sender's side of a divergence. -/
def ContMsg.other (m : ContMsg) : Other :=
  { tj := m.tj, load := m.loadSig, level := m.level, lo := leAt m.digest 0 4, hi := leAt m.digest 4 4 }

/-- A DIVERGED verdict is logged and then only sends its notice. -/
theorem State.diverge_sends (s : State) (r : TickRun) (m : ContMsg) :
    AfterSend (({ s with twin := s.twin.diverged } : State).logDivergence r m.other) (s.diverge r m) := by
  unfold State.diverge
  simp only [decide_eq_true_eq]
  exact AfterSend.sendRushes _ _

theorem State.diverge_after (s : State) (r : TickRun) (m : ContMsg) : AfterDivergence s (s.diverge r m) := by
  have hsent := s.diverge_sends r m
  obtain ⟨held, n, htwin⟩ := ({ s with twin := s.twin.diverged } : State).logDivergence_twin r m.other
  replace htwin : (s.diverge r m).twin = { s.twin.diverged with logHeld := held, divTick := n } := hsent.twin.trans htwin
  have hrd (off : Nat) (hoff : off < 0x98) :
      (s.diverge r m).rd pgTwin off
        = ((({ s with twin := s.twin.diverged } : State).latchLog r m.other).count pgTwin 0x8C 1).rd pgTwin off := by
    rw [hsent.twinRegs off (by omega), State.logDivergence_rd _ _ _ (by omega)]
  refine ⟨⟨?_, ?_, ?_, ?_, fun off hoff => ?_⟩, ?_, fun hstep => ?_, ?_, ?_⟩
  · rw [hsent.units, State.logDivergence_units]
  · rw [hsent.stores, State.logDivergence_stores]
  · rw [htwin, Twin.diverged]
  · rw [htwin, Twin.diverged]
  · rw [hrd _ (by omega), State.rd_count_ne _ _ _ _ (rk_ne_of_off (by omega)), State.latchLog_rd _ _ _ (by omega)]
    rfl
  · rw [htwin, Twin.diverged]
  · rw [htwin]
    exact if_neg hstep
  · rw [hsent.has, State.logDivergence_has]
  · rw [hrd _ (by decide), State.rd_count_same, State.latchLog_rd _ _ _ (by decide)]
    rfl

/-! ### The CTX section (R339) -/

/-- The twin table after one descriptor of a CTX section: it goes in unless the table holds one as new. -/
def tableStore (tab : SMap (Option (Nat × Desc))) (e : Bytes) : SMap (Option (Nat × Desc)) :=
  match mget (fun _ => none) tab (Desc.parse e).index with
  | some (_, x) =>
    if x.ver < (Desc.parse e).ver then mset (fun _ => none) tab (Desc.parse e).index (some (descPart e, Desc.parse e)) else tab
  | none => mset (fun _ => none) tab (Desc.parse e).index (some (descPart e, Desc.parse e))

/-- The twin table after the first n descriptors of a CTX section. -/
def tableStoreAll (tab : SMap (Option (Nat × Desc))) (b : Bytes) (n : Nat) : SMap (Option (Nat × Desc)) :=
  match n with
  | 0 => tab
  | n + 1 => tableStoreAll (tableStore tab (b.take 256)) (b.drop 256) n

theorem State.storeCtx_eq (s : State) (b : Bytes) (n : Nat) :
    s.storeCtx b n = { s with twin := { s.twin with table := tableStoreAll s.twin.table b n } } := by
  induction n generalizing s b with
  | zero => rfl
  | succ n ih =>
    rw [State.storeCtx, tableStoreAll, tableStore]
    dsimp only
    rw [ih]
    cases mget (fun _ => none) s.twin.table (Desc.parse (b.take 256)).index with
    | none => rfl
    | some x => by_cases hver : x.2.ver < (Desc.parse (b.take 256)).ver <;> simp [hver]

/-- A twin table holds a descriptor of index i whose VER is at least v. -/
def tableHolds (tab : SMap (Option (Nat × Desc))) (i v : Nat) : Prop :=
  ∃ x, mget (fun _ => none) tab i = some x ∧ v ≤ x.2.ver

theorem tableHolds_mset (tab : SMap (Option (Nat × Desc))) (i p : Nat) (d : Desc) :
    tableHolds (mset (fun _ => none) tab i (some (p, d))) i d.ver := ⟨(p, d), mget_mset_same _ _ _ _, Nat.le_refl d.ver⟩

theorem tableHolds_tableStore_own (tab : SMap (Option (Nat × Desc))) (e : Bytes) :
    tableHolds (tableStore tab e) (Desc.parse e).index (Desc.parse e).ver := by
  unfold tableStore
  split
  · next x hold =>
    split
    · exact tableHolds_mset _ _ _ _
    · next hver => exact ⟨_, hold, Nat.not_lt.1 hver⟩
  · exact tableHolds_mset _ _ _ _

/-- What the table holds is replaced by something newer only. -/
theorem tableHolds.tableStore {tab : SMap (Option (Nat × Desc))} {i v : Nat} (h : tableHolds tab i v) (e : Bytes) :
    tableHolds (tableStore tab e) i v := by
  obtain ⟨x, hx, hv⟩ := h
  by_cases hi : i = (Desc.parse e).index
  · subst hi
    unfold Machine.tableStore
    rw [hx]
    dsimp only
    split
    · next hver => exact ⟨_, mget_mset_same _ _ _ _, Nat.le_trans hv (Nat.le_of_lt hver)⟩
    · exact ⟨x, hx, hv⟩
  · refine ⟨x, ?_, hv⟩
    unfold Machine.tableStore
    split
    · split
      · rw [mget_mset_ne _ _ _ hi, hx]
      · exact hx
    · rw [mget_mset_ne _ _ _ hi, hx]

theorem tableHolds.tableStoreAll {tab : SMap (Option (Nat × Desc))} {i v : Nat} (h : tableHolds tab i v) (b : Bytes) (n : Nat) :
    tableHolds (tableStoreAll tab b n) i v := by
  induction n generalizing tab b with
  | zero => exact h
  | succ n ih => exact ih (h.tableStore _) _

/-- Each descriptor of the section is in the table, or a newer one is. -/
theorem tableHolds_tableStoreAll (tab : SMap (Option (Nat × Desc))) (b : Bytes) {n k : Nat} (hk : k < n) :
    tableHolds (tableStoreAll tab b n) (Desc.parse ((b.drop (256 * k)).take 256)).index
      (Desc.parse ((b.drop (256 * k)).take 256)).ver := by
  induction n generalizing tab b k with
  | zero => omega
  | succ n ih =>
    cases k with
    | zero => exact (tableHolds_tableStore_own tab _).tableStoreAll _ n
    | succ k =>
      have h := ih (tableStore tab (b.take 256)) (b.drop 256) (Nat.lt_of_succ_lt_succ hk)
      rwa [List.drop_drop, Nat.add_comm, ← Nat.mul_succ] at h

/-! ### Accepting a late message (R326, R328) -/

/-- What every accepted message does: the epoch and the marks it carries, the CONT page's figures and its CTX section. -/
def State.contStored (s : State) (b : Bytes) : State :=
  let m := contMsg b
  let s := { s with twin := { s.twin with
    takeEpoch := max s.twin.takeEpoch m.epoch, lastPublished := some m.published,
    handoverSeen := if m.handoverAt ≠ 0 then m.handoverAt else s.twin.handoverSeen } }
  let s := (s.wr pgCont 0x108 (word b.length)).contDone m.tick
  let ctx := contSection b 3
  let s := s.storeCtx ctx (ctx.length / 256)
  if m.flags.testBit 1 then s.count pgCont 0x118 1 else s

/-- The state in which a late message is compared with the own shadow: stored, and counted as late. -/
def State.lateCounted (s : State) (b : Bytes) : State := (s.contStored b).count pgTwin 0x78 1

/-- The own run r of a message's tick is a valid shadow, the message fills nothing, and the digests differ (R325, R328). -/
def shadowDiffers (r : TickRun) (m : ContMsg) : Prop :=
  r.valid = true ∧ m.fills = [] ∧ m.flags.testBit 1 = false ∧ r.digest ≠ m.digest

/-- Message m is compared with the own shadow of its tick. -/
def State.compareLate (s : State) (m : ContMsg) : State :=
  match s.tickRun m.tick with
  | some r => if r.valid && m.fills.isEmpty && !m.flags.testBit 1 && decide (r.digest ≠ m.digest) then s.diverge r m else s
  | none => s

theorem State.compareLate_of_differs {s : State} {r : TickRun} {m : ContMsg} (hrun : s.tickRun m.tick = some r)
    (h : shadowDiffers r m) : AfterDivergence s (s.compareLate m) := by
  obtain ⟨hvalid, hfills, hover, hdigest⟩ := h
  have hdiverge : s.compareLate m = s.diverge r m := by simp [State.compareLate, hrun, hvalid, hfills, hover, hdigest]
  exact hdiverge ▸ s.diverge_after r m

theorem State.compareLate_of_agrees {s : State} {m : ContMsg} (h : ∀ r, s.tickRun m.tick = some r → ¬ shadowDiffers r m) :
    s.compareLate m = s := by
  unfold State.compareLate
  split
  · next r hrun =>
    refine if_neg fun hc => h r hrun ?_
    simpa [shadowDiffers, and_assoc] using hc
  · rfl

theorem State.compareLate_keeps (s : State) (m : ContMsg) : KeepsTwinData s (s.compareLate m) := by
  by_cases h : ∃ r, s.tickRun m.tick = some r ∧ shadowDiffers r m
  · obtain ⟨r, hrun, hdiff⟩ := h
    exact (State.compareLate_of_differs hrun hdiff).toKeepsTwinData
  · rw [State.compareLate_of_agrees fun r hrun hdiff => h ⟨r, hrun, hdiff⟩]
    exact KeepsTwinData.refl s

/-- Beside registers, an accepted message changes three marks of the twin and stores its descriptors. -/
theorem State.contStored_rest (s : State) (b : Bytes) :
    ∃ e p h c, s.contStored b = { s with
      reg := { s.reg with cur := c }
      twin := { s.twin with takeEpoch := e, lastPublished := p, handoverSeen := h,
                            table := tableStoreAll s.twin.table (contSection b 3) ((contSection b 3).length / 256) } } := by
  unfold State.contStored
  dsimp only
  rw [State.storeCtx_eq]
  split
  · exact ⟨_, _, _, _, rfl⟩
  · exact ⟨_, _, _, _, rfl⟩

theorem State.contDone_rd_twin (s : State) (n : Nat) {off : Nat} (h : off < 0x1000) :
    (s.contDone n).rd pgTwin off = s.rd pgTwin off := by
  unfold State.contDone State.countMax
  dsimp only
  rw [State.rd_wr_ne _ _ _ _ (rk_twin_ne_above (by decide) h), State.rd_wr_ne _ _ _ _ (rk_twin_ne_above (by decide) h)]

theorem State.storeCtx_rd (s : State) (b : Bytes) (n pg off : Nat) : (s.storeCtx b n).rd pg off = s.rd pg off := by
  rw [State.storeCtx_eq]
  rfl

theorem State.contStored_rd_twin (s : State) (b : Bytes) {off : Nat} (h : off < 0x1000) :
    (s.contStored b).rd pgTwin off = s.rd pgTwin off := by
  have hcont (o : Nat) : rk pgTwin off ≠ rk pgCont o := rk_twin_ne_above (by decide) h
  unfold State.contStored
  dsimp only
  split
  · rw [State.rd_count_ne _ _ _ _ (hcont _), State.storeCtx_rd, State.contDone_rd_twin _ _ h, State.rd_wr_ne _ _ _ _ (hcont _)]
    rfl
  · rw [State.storeCtx_rd, State.contDone_rd_twin _ _ h, State.rd_wr_ne _ _ _ _ (hcont _)]
    rfl

/-- `t` is `s` with the late message b stored and counted, before it is compared with the own shadow. -/
structure LateStored (b : Bytes) (s t : State) : Prop where
  units : t.units = s.units
  stores : t.stores = s.stores
  sched : t.sched = s.sched
  msgs : t.twin.msgs = s.twin.msgs
  step : t.twin.step = s.twin.step
  claimBlock : t.twin.claimBlock = s.twin.claimBlock
  table : t.twin.table = tableStoreAll s.twin.table (contSection b 3) ((contSection b 3).length / 256)
  late : t.rd pgTwin 0x78 = satAdd (s.rd pgTwin 0x78) 1
  divs : t.rd pgTwin 0x8C = s.rd pgTwin 0x8C

theorem State.lateCounted_stored (s : State) (b : Bytes) : LateStored b s (s.lateCounted b) := by
  have hlate : (s.lateCounted b).rd pgTwin 0x78 = satAdd (s.rd pgTwin 0x78) 1 := by
    rw [State.lateCounted, State.rd_count_same, State.contStored_rd_twin _ _ (by decide)]
  have hdivs : (s.lateCounted b).rd pgTwin 0x8C = s.rd pgTwin 0x8C := by
    rw [State.lateCounted, State.rd_count_ne _ _ _ _ (rk_ne_of_off (by decide)), State.contStored_rd_twin _ _ (by decide)]
  obtain ⟨e, p, h, c, hrest⟩ := s.contStored_rest b
  refine ⟨?_, ?_, ?_, ?_, ?_, ?_, ?_, hlate, hdivs⟩ <;>
  · rw [State.lateCounted, hrest]
    rfl

/-- A message with a reel, accepted after its judgement slate, is stored, counted and compared, and nothing else. -/
theorem State.contAccept_late {s : State} {b : Bytes} (hreel : (leAt b 6 2).testBit 0 = false)
    (hlate : leAt b 8 8 + 2 ≤ s.clap.num) : s.contAccept b = (s.lateCounted b).compareLate (contMsg b) := by
  have hclap : (s.contStored b).clap = s.clap := by
    obtain ⟨e, p, h, c, hrest⟩ := s.contStored_rest b
    rw [hrest]
  have hsplit : ∃ u, s.contAccept b = if (leAt b 6 2).testBit 0 then s.contStored b
      else if leAt b 8 8 + 2 ≤ (s.contStored b).clap.num then (s.lateCounted b).compareLate (contMsg b) else u := ⟨_, rfl⟩
  obtain ⟨u, hsplit⟩ := hsplit
  rw [hsplit, hreel, if_neg Bool.false_ne_true, hclap, if_pos hlate]

/-! ### The command -/

/-- The state in which the double takes a continuity message from its inbox. -/
def State.contTaken (s : State) (inst : Nat) : State :=
  let s := s.begin.at inst
  { s with links := { s.links with inbox := dropFirst (fun m => m.kind = 3) s.links.inbox } }

theorem exec_contMessage_accepted {inst : Nat} {m : InBox} {s : State} (hbox : (s.links.inbox.find? fun m => m.kind = 3) = some m)
    (hrole : s.twin.role = .double) (hmagic : leAt m.data 0 4 = contMagic) (hformat : leAt m.data 4 2 = 1)
    (hreel : s.contReel m.data = true) (hepoch : s.twin.takeEpoch ≤ leAt m.data 0x10 4) :
    exec (.contMessage inst) s = .next ((s.contTaken inst).contAccept m.data) := by
  have hpop : (s.begin.at inst).popInbox (fun m => m.kind = 3) = some (m, s.contTaken inst) := by
    simp [State.popInbox, hbox, State.contTaken]
  have hrole' : (s.contTaken inst).twin.role = .double := hrole
  have hreel' : (s.contTaken inst).contReel m.data = true := hreel
  have hepoch' : ¬ leAt m.data 0x10 4 < (s.contTaken inst).twin.takeEpoch := Nat.not_lt.2 hepoch
  show execContMessage inst s = _
  unfold execContMessage
  dsimp only
  rw [hpop]
  simp [hrole', hmagic, hformat, hreel', hepoch']

/-- Settles O57: the message is stored and counted, and then its digest either settles nothing or gives a divergence. -/
theorem lateMessages : Obligations.LateMessages := by
  unfold Obligations.LateMessages
  intro inst m s hbox hrole hmagic hformat hreel hepoch hflag hlate
  have hexec := exec_contMessage_accepted (inst := inst) hbox hrole hmagic hformat hreel hepoch
  have hlate' : leAt m.data 8 8 + 2 ≤ (s.contTaken inst).clap.num := hlate
  rw [State.contAccept_late hflag hlate'] at hexec
  have hstored := (s.contTaken inst).lateCounted_stored m.data
  generalize (s.contTaken inst).lateCounted m.data = u at hexec hstored
  have hkeeps := u.compareLate_keeps (contMsg m.data)
  have hrun (n : Nat) : u.tickRun n = s.tickRun n := by
    unfold State.tickRun
    rw [hstored.sched]
    rfl
  refine ⟨_, hexec, hkeeps.units.trans hstored.units, hkeeps.stores.trans hstored.stores, hkeeps.msgs.trans hstored.msgs,
    (hkeeps.below _ (by decide)).trans hstored.late, fun r hr => ⟨fun hvalid hdigest => ?_, fun hagrees => ?_⟩, fun k hk _ => ?_⟩
  · obtain ⟨hshadow, hfills, hover⟩ := hvalid
    have hdiv := State.compareLate_of_differs ((hrun _).trans hr) (m := contMsg m.data) ⟨hshadow, hfills, hover, hdigest⟩
    refine ⟨hdiv.event, hdiv.claimBlock, hdiv.counted.trans (congrArg (satAdd · 1) hstored.divs), fun hstep => hdiv.step ?_⟩
    rwa [hstored.step]
  · have hsame : u.compareLate (contMsg m.data) = u := by
      refine State.compareLate_of_agrees fun r' hr' ⟨hshadow, hfills, hover, hdigest⟩ => ?_
      obtain rfl : r = r' := Option.some.inj (hr.symm.trans ((hrun _).symm.trans hr'))
      exact hagrees.elim (fun hinvalid => hinvalid ⟨hshadow, hfills, hover⟩) hdigest
    rw [hsame]
    exact ⟨hstored.step, hstored.claimBlock, hstored.divs⟩
  · rw [hkeeps.table, hstored.table]
    exact tableHolds_tableStoreAll _ _ hk

end Sys2Proof.Machine
end

/-! The PMBus watchdog (R375): what PMBUS_SILENT does, and that every transaction of the PMBus table (R420) is carried out
from a state in which its flag has been cleared, by an action that leaves the flag alone. -/
section
namespace Sys2Proof.Machine

/-! ### The supply's state behind a write from the interface -/

@[simp] theorem State.pmbusSeen_pmbusSilent (s : State) : s.pmbusSeen.power.pmbusSilent = false := rfl
@[simp] theorem State.refuse_power (s : State) (pg : Nat) : (s.refuse pg).power = s.power := State.raise_power s pg evRefused

/-- Meeting the page as a write raises events and does nothing else. -/
theorem AfterEvents.arrive (s : State) (pg off : Nat) (v : Word) : AfterEvents s (s.arrive pg off v).2 := by
  unfold State.arrive
  split
  · exact AfterEvents.raiseIf s _ pg _
  · dsimp only
    split
    · exact AfterEvents.raise s pg _
    split
    · exact AfterEvents.refl s
    split
    · exact (AfterEvents.raiseIf s _ pg _).trans (AfterEvents.raiseIf _ _ pg _)
    · exact AfterEvents.raiseIf s _ pg _

theorem AfterEvents.power {u t : State} (h : AfterEvents u t) : t.power = u.power := by rw [h.rest]

@[simp] theorem State.arrive_power (s : State) (pg off : Nat) (v : Word) : (s.arrive pg off v).2.power = s.power :=
  (AfterEvents.arrive s pg off v).power

/-! ### Actions that leave the watchdog's flag alone -/

/-- The action neither raises nor clears the flag that PMBUS_SILENT has been raised. -/
def KeepsPmbusSilent (f : State → State) : Prop := ∀ u : State, (f u).power.pmbusSilent = u.power.pmbusSilent

theorem KeepsPmbusSilent.wrapEnter : KeepsPmbusSilent fun s => s.wrapEnter.2 := by
  intro s
  show s.wrapEnter.2.power.pmbusSilent = _
  unfold State.wrapEnter
  split
  · simp only [State.refuse_power]
  split
  · rfl
  split
  · simp only [State.refuse_power]
  split <;> rfl

theorem KeepsPmbusSilent.wrapWake : KeepsPmbusSilent State.wrapWake := by
  intro s
  unfold State.wrapWake
  split
  · rfl
  split <;> rfl

theorem KeepsPmbusSilent.clearStatus : KeepsPmbusSilent State.clearStatus := fun _ => rfl

theorem KeepsPmbusSilent.pmbusWrite {f : State → Word → State} (hf : ∀ w, KeepsPmbusSilent fun s => f s w) (off : Nat)
    (v : Word) : KeepsPmbusSilent fun s => s.pmbusWrite off v f := by
  intro s
  have hsame := s.arrive_power pgGaffer off v
  show (s.pmbusWrite off v f).power.pmbusSilent = _
  unfold State.pmbusWrite
  generalize s.arrive pgGaffer off v = r at hsame ⊢
  rw [← hsame]
  obtain ⟨_ | w, u⟩ := r
  · rfl
  · exact hf w u

theorem KeepsPmbusSilent.pmbusEnter : KeepsPmbusSilent State.pmbusEnter := by
  intro s
  have hsame := s.arrive_power pgGaffer 0x80 1
  unfold State.pmbusEnter
  generalize s.arrive pgGaffer 0x80 1 = r at hsame ⊢
  rw [← hsame]
  obtain ⟨_ | w, u⟩ := r
  · rfl
  · have henter : u.wrapEnter.2.power.pmbusSilent = u.power.pmbusSilent := KeepsPmbusSilent.wrapEnter u
    dsimp only
    generalize u.wrapEnter = e at henter ⊢
    obtain ⟨_ | _, x⟩ := e <;> exact henter

/-! ### The transactions of the table (R420) -/

/-- A command of the table that only reads answers with bytes. -/
theorem exec_pmbusRead {c : Instr} (h : c ∈ pmbusReads) :
    ∃ b : State → Bytes, ∀ s, exec c s = .next (s.pmbus fun u => u.emit (.pmbus (b u))) := by
  simp only [pmbusReads, List.mem_cons, List.not_mem_nil, or_false] at h
  rcases h with rfl | rfl | rfl | rfl | rfl | rfl | rfl | rfl | rfl | rfl | rfl | rfl | rfl | rfl | rfl | rfl | rfl | rfl | rfl <;>
    exact ⟨_, fun _ => rfl⟩

theorem exec_operation (write : Bool) (v : Byte) :
    ∃ f, (∀ s, exec (.operation write v) s = .next (s.pmbus f)) ∧ KeepsPmbusSilent f := by
  refine ⟨_, fun _ => rfl, fun u => ?_⟩
  split
  · rfl
  split
  · exact KeepsPmbusSilent.pmbusWrite (fun _ => KeepsPmbusSilent.wrapWake) _ _ u
  split
  · exact KeepsPmbusSilent.pmbusEnter u
  · rfl

theorem exec_mfrPowerCap (write : Bool) (v : BitVec 16) :
    ∃ f, (∀ s, exec (.mfrPowerCap write v) s = .next (s.pmbus f)) ∧ KeepsPmbusSilent f := by
  refine ⟨_, fun _ => rfl, fun u => ?_⟩
  dsimp only
  split
  · rfl
  split
  · rfl
  · exact KeepsPmbusSilent.pmbusWrite (f := fun s x => s.wr pgGaffer 0x44 x) (fun _ _ => rfl) _ _ u

theorem exec_pmbusUnsupported (code : Byte) :
    ∃ f, (∀ s, exec (.pmbusUnsupported code) s = .next (s.pmbus f)) ∧ KeepsPmbusSilent f := by
  refine ⟨_, fun _ => rfl, fun u => ?_⟩
  split <;> rfl

/-- Every transaction of the table is an action of the interface, and only the interface itself clears the flag. -/
theorem exec_pmbusRow {c : Instr} (h : pmbusRow c = true) :
    ∃ f, (∀ s, exec c s = .next (s.pmbus f)) ∧ KeepsPmbusSilent f := by
  unfold pmbusRow at h
  split at h
  · exact ⟨_, fun _ => rfl, KeepsPmbusSilent.clearStatus⟩
  · exact exec_operation _ _
  · exact exec_mfrPowerCap _ _
  · exact exec_pmbusUnsupported _
  · rw [Bool.or_false, List.contains_iff_mem] at h
    obtain ⟨b, hb⟩ := exec_pmbusRead h
    exact ⟨_, hb, fun _ => rfl⟩

/-- An action of the interface, once it answers, starts from a cleared flag (R375, R419). -/
theorem State.pmbus_pmbusSilent {s : State} (hup : s.pmbusUp = true) {f : State → State} (hf : KeepsPmbusSilent f) :
    (s.pmbus f).power.pmbusSilent = false := by
  have hbegin : s.begin.pmbusUp = true := hup
  unfold State.pmbus
  dsimp only
  rw [if_pos hbegin, hf, State.pmbusSeen_pmbusSilent]

/-! ### The watchdog -/

/-- The watchdog is off, or has raised its event since the last transaction. -/
theorem exec_pmbusSilent_of_quiet {s : State} (h : field (s.rd pgGaffer 0x88) 0 16 = 0 ∨ s.power.pmbusSilent = true) :
    exec .pmbusSilent s = .next s.begin := by
  have hquiet : (field (s.begin.rd pgGaffer 0x88) 0 16 = 0 || s.begin.power.pmbusSilent) = true := by
    rw [Bool.or_eq_true, decide_eq_true_eq]; exact h
  show execPmbusSilent s = _
  rw [execPmbusSilent, if_pos hquiet]

theorem exec_pmbusSilent_of_due {s : State} (hon : field (s.rd pgGaffer 0x88) 0 16 ≠ 0) (hfirst : s.power.pmbusSilent = false) :
    exec .pmbusSilent s = .next ((s.begin.modPower fun w => { w with pmbusSilent := true }).raise pgGaffer 22) := by
  have hdue : ¬ (field (s.begin.rd pgGaffer 0x88) 0 16 = 0 || s.begin.power.pmbusSilent) = true := by
    rw [Bool.or_eq_true, decide_eq_true_eq]; exact not_or.2 ⟨hon, Bool.eq_false_iff.1 hfirst⟩
  show execPmbusSilent s = _
  rw [execPmbusSilent, if_neg hdue]

/-- Settles O45: the event comes with the flag, the flag holds it back, and every transaction clears the flag. -/
theorem pmbusWatchdog : Obligations.PmbusWatchdog := by
  unfold Obligations.PmbusWatchdog
  refine ⟨fun s hon hfirst => ?_, fun s hquiet => exec_pmbusSilent_of_quiet hquiet, fun c s t hrow hup hexec => ?_⟩
  · refine ⟨_, exec_pmbusSilent_of_due hon hfirst, State.has_raise _ _ (by decide), ?_⟩
    exact (AfterEvents.begin { s with power := { s.power with pmbusSilent := true } }).trans (AfterEvents.raise _ _ _)
  · obtain ⟨f, hf, hkeeps⟩ := exec_pmbusRow hrow
    obtain rfl := Host.Outcome.next.inj ((hf s).symm.trans hexec)
    exact State.pmbus_pmbusSilent hup hkeeps

end Sys2Proof.Machine
end
